-- ==== Sys2Proof/Word.lean ====
section
/-! DEFINITION. The words of the block: a byte of the stream or of a frame, a 16-bit message identifier, the wider
register words. -/

namespace Sys2Proof

/-- A byte, 0 to 255 (`00_scope.md` R6). -/
abbrev Byte := BitVec 8

/-- The 16-bit message identifier `(IDH << 8) | IDL` (`20_memory.md` R32). -/
abbrev Ident := BitVec 16

/-- A 16-bit register word. -/
abbrev Half := BitVec 16

/-- A 32-bit register word. -/
abbrev Word := BitVec 32

end Sys2Proof
end

