-- ==== Sys2Proof/Config.lean ====
section
/-! DEFINITION. The configuration of the block (`00_scope.md` R4): parameters fixed before the first byte and never
written. `LEN_TABLE` and `LAYOUT` are arguments of the model, so that a receiver's real lengths and offsets can be
substituted without touching a rule (`30_encoding.md` R59). The default values stand in Decode.lean. -/

namespace Sys2Proof

/-- The place of one field in a completed frame: byte offset and width in bytes (`00_scope.md` R4, `LAYOUT`). -/
structure FieldSpec where
  off : Nat
  width : Nat
deriving DecidableEq, Repr

/-- What a field that goes into `w` bits gives when its value `v` does not fit them, or when it has no byte: the spec gives
these no rule, so the value is free (log entry 24, DESIGN CHOICE). -/
opaque Config.freeField (f : FieldSpec) (v w : Nat) : BitVec w

/-- What a bit field of `n` bits from bit `lo` of the byte `v` gives above bit 7: the spec bounds no bit number, so these
bits are free (log entry 27, DESIGN CHOICE). -/
opaque Config.freeBits (v : Byte) (lo n : Nat) : BitVec n

/-- The bit numbers of the four validity bits in their status byte (`30_encoding.md` R51(e)). -/
structure ValidityBits where
  posBit : Nat
  altBit : Nat
  hdgBit : Nat
  spdBit : Nat
deriving DecidableEq, Repr

/-- The seven calendar fields that two messages share (`30_encoding.md` R55, R56). -/
structure CalendarLayout where
  year : FieldSpec
  month : FieldSpec
  day : FieldSpec
  hour : FieldSpec
  minute : FieldSpec
  second : FieldSpec
  offset : FieldSpec
deriving DecidableEq, Repr

/-- Fields of `FASTFIX` (`30_encoding.md` R54). -/
structure FastfixLayout where
  status : FieldSpec
  valid : ValidityBits
  age : FieldSpec
  tow : FieldSpec
  lat : FieldSpec
  lon : FieldSpec
  alt : FieldSpec
deriving DecidableEq, Repr

/-- Fields of `GPSFIX` (`30_encoding.md` R57); `fixSrcLo` and `altHoldLo` are the lowest bits of the two bit fields
of `status1`. -/
structure GpsfixLayout where
  status1 : FieldSpec
  fixSrcLo : Nat
  altHoldLo : Nat
  status2 : FieldSpec
  valid : ValidityBits
  lat : FieldSpec
  lon : FieldSpec
  alt : FieldSpec
  hdg : FieldSpec
  spd : FieldSpec
deriving DecidableEq, Repr

/-- Fields of `UTCCONST` (`30_encoding.md` R55); `visLo` is the lowest bit of the visible-satellite count in `vis`. -/
structure UtcconstLayout where
  cal : CalendarLayout
  pdop : FieldSpec
  hdop : FieldSpec
  vdop : FieldSpec
  vis : FieldSpec
  visLo : Nat
deriving DecidableEq, Repr

/-- Fields of `UTCTIME` (`30_encoding.md` R56). -/
structure UtctimeLayout where
  tow : FieldSpec
  week : FieldSpec
  cal : CalendarLayout
deriving DecidableEq, Repr

/-- Fields of `CHANSTAT` (`30_encoding.md` R58), with the bit numbers of the four flags and the lowest bits of the two
2-bit statuses. Both statuses lie in the one byte `almeph`, as R58 and `41_dispatch.md` R90 name it; that no layout can put
them into two bytes is the model's choice (log entry 28, DESIGN CHOICE). -/
structure ChanstatLayout where
  index : FieldSpec
  prn : FieldSpec
  flags : FieldSpec
  visibleBit : Nat
  hasTrackedBit : Nat
  trackingBit : Nat
  meetsMaskBit : Nat
  snr : FieldSpec
  az : FieldSpec
  el : FieldSpec
  almeph : FieldSpec
  almLo : Nat
  ephLo : Nat
deriving DecidableEq, Repr

/-- `LAYOUT` of `00_scope.md` R4. -/
structure Layout where
  fastfix : FastfixLayout
  gpsfix : GpsfixLayout
  utcconst : UtcconstLayout
  utctime : UtctimeLayout
  chanstat : ChanstatLayout
deriving DecidableEq, Repr

/-- `INIT` of `00_scope.md` R4: one value for each Navigation State field for which `10_state.md` R22 states none. -/
structure InitValues where
  age : Byte
  tow : Word
  latRaw : Word
  lonRaw : Word
  alt : Half
  hdgRaw : Half
  spd : Half
  visCount : BitVec 4
  trkCount : BitVec 4
  fixSrc : BitVec 6
  altHold : BitVec 2
  year : Half
  month : Byte
  day : Byte
  hour : Byte
  minute : Byte
  second : Byte
  utcOff : Byte
  week : Half
  gpsTow : Word
deriving DecidableEq, Repr

/-- The configuration (`00_scope.md` R4). `lenTable` is the partial map `LEN_TABLE` as a list of pairs. -/
structure Config where
  storeSync : Bool
  dispatchInvalid : Bool
  bufMax : Nat
  lenTable : List (Ident × Nat)
  layout : Layout
  throttleTicks : Nat
  init : InitValues
deriving DecidableEq, Repr

/-- `LEN_TABLE(i)`: `Some L` or `None` (`00_scope.md` R7). -/
def Config.lengthOf (c : Config) (i : Ident) : Option Nat :=
  c.lenTable.lookup i

/-- Identifier of `FASTFIX` (`30_encoding.md` R53). -/
abbrev identFastfix : Ident := 0x3002
/-- Identifier of `GPSFIX` (`30_encoding.md` R53). -/
abbrev identGpsfix : Ident := 0x3101
/-- Identifier of `UTCCONST` (`30_encoding.md` R53). -/
abbrev identUtcconst : Ident := 0x3201
/-- Identifier of `UTCTIME` (`30_encoding.md` R53). -/
abbrev identUtctime : Ident := 0x3203
/-- Identifier of `CHANSTAT` (`30_encoding.md` R53). -/
abbrev identChanstat : Ident := 0x3301

/-- The five identifiers that select a decode routine (`30_encoding.md` R53). -/
def dispatchedIdents : List Ident :=
  [identFastfix, identGpsfix, identUtcconst, identUtctime, identChanstat]

end Sys2Proof
end

