-- ==== Sys2Proof/Syntax/Fields.lean ====
section
/-! DEFINITION. The operands of the level-2 instructions: the fields a frame of each message type carries
(`30_encoding.md` R54 to R58), after assembly (R51) and before any register is written. -/

namespace Sys2Proof

/-- The four validity flags of a status byte (`30_encoding.md` R51(e)). -/
structure Validity where
  pos : Bool
  alt : Bool
  hdg : Bool
  spd : Bool
deriving DecidableEq, Repr

/-- The seven calendar operands of `UTCCONST` and `UTCTIME` (`30_encoding.md` R55, R56); `year` is zero-extended. -/
structure Calendar where
  year : Half
  month : Byte
  day : Byte
  hour : Byte
  minute : Byte
  second : Byte
  offset : Byte
deriving DecidableEq, Repr

/-- Operands of `FASTFIX` (`30_encoding.md` R54). -/
structure FastfixFields where
  status : Validity
  age : Byte
  tow : Word
  lat : Word
  lon : Word
  alt : Half
deriving DecidableEq, Repr

/-- Operands of `GPSFIX` (`30_encoding.md` R57). -/
structure GpsfixFields where
  fixSrc : BitVec 6
  altHold : BitVec 2
  status : Validity
  lat : Word
  lon : Word
  alt : Half
  hdg : Half
  spd : Half
deriving DecidableEq, Repr

/-- Operands of `UTCCONST` (`30_encoding.md` R55). -/
structure UtcconstFields where
  cal : Calendar
  pdop : Half
  hdop : Half
  vdop : Half
  vis : BitVec 4
deriving DecidableEq, Repr

/-- Operands of `UTCTIME` (`30_encoding.md` R56). -/
structure UtctimeFields where
  tow : Word
  week : Half
  cal : Calendar
deriving DecidableEq, Repr

/-- Operands of `CHANSTAT` (`30_encoding.md` R58); `index` is the raw byte, before the clamp; `az` is
zero-extended. -/
structure ChanstatFields where
  index : Byte
  prn : Byte
  visible : Bool
  hasTracked : Bool
  tracking : Bool
  meetsMask : Bool
  snr : Byte
  az : Half
  el : Byte
  alm : BitVec 2
  eph : BitVec 2
deriving DecidableEq, Repr

end Sys2Proof
end

