-- ==== Sys2Proof/Syntax.lean ====
section
/-! DEFINITION. The instruction set: one constructor per row of spec/opcode_table.json. The first four are the wire
byte classes of level 1 (`30_encoding.md` R45), the last six the frames of level 2 (R53), whose `mark` is the `MARK`
byte of the header (R50). -/

namespace Sys2Proof

/-- An instruction of either level. -/
inductive Instr where
  /-- `SYNC`, the byte 0x81. -/
  | sync
  /-- `ESC`, the byte 0x80. -/
  | esc
  /-- `END`, the byte 0x82. -/
  | endByte
  /-- `DATA`, every other byte. -/
  | data (b : Byte)
  /-- `FASTFIX`, identifier 0x3002. -/
  | fastfix (mark : Byte) (f : FastfixFields)
  /-- `GPSFIX`, identifier 0x3101. -/
  | gpsfix (mark : Byte) (f : GpsfixFields)
  /-- `UTCCONST`, identifier 0x3201. -/
  | utcconst (mark : Byte) (f : UtcconstFields)
  /-- `UTCTIME`, identifier 0x3203. -/
  | utctime (mark : Byte) (f : UtctimeFields)
  /-- `CHANSTAT`, identifier 0x3301. -/
  | chanstat (mark : Byte) (f : ChanstatFields)
  /-- `UNKNOWN`, any other identifier. -/
  | unknown (mark : Byte) (ident : Ident)
deriving DecidableEq, Repr

end Sys2Proof
end

