-- ==== Sys2Proof/WellFormed.lean ====
section
/-! DEFINITION. Which instructions an encoding can carry, and which configurations the rules are stated for. -/

namespace Sys2Proof

/-! ## Instructions -/

/-- Whether the instruction is one an encoding of `30_encoding.md` can carry: a `DATA` byte is none of the three special
values (R45), an `UNKNOWN` identifier is none of the five dispatched ones (R53), and `year` and `az` fit the one byte
that the default layout gives them (R55, R56, R58). -/
def Instr.wf : Instr → Bool
  | .sync => true
  | .esc => true
  | .endByte => true
  | .data b => b != 0x80 && b != 0x81 && b != 0x82
  | .fastfix _ _ => true
  | .gpsfix _ _ => true
  | .utcconst _ f => decide (f.cal.year.toNat < 256)
  | .utctime _ f => decide (f.cal.year.toNat < 256)
  | .chanstat _ f => decide (f.az.toNat < 256)
  | .unknown _ i => !dispatchedIdents.contains i

/-! ## Configurations -/

/-- The field lies in `[3, L)` (`00_scope.md` R5(c)). -/
def FieldSpec.inFrame (L : Nat) (f : FieldSpec) : Bool := decide (3 ≤ f.off) && decide (f.off + f.width ≤ L)

/-- The seven calendar fields (`30_encoding.md` R55, R56). -/
def CalendarLayout.fields (l : CalendarLayout) : List FieldSpec :=
  [l.year, l.month, l.day, l.hour, l.minute, l.second, l.offset]

/-- The fields of `FASTFIX` (`30_encoding.md` R54). -/
def FastfixLayout.fields (l : FastfixLayout) : List FieldSpec := [l.status, l.age, l.tow, l.lat, l.lon, l.alt]

/-- The fields of `GPSFIX` (`30_encoding.md` R57). -/
def GpsfixLayout.fields (l : GpsfixLayout) : List FieldSpec :=
  [l.status1, l.status2, l.lat, l.lon, l.alt, l.hdg, l.spd]

/-- The fields of `UTCCONST` (`30_encoding.md` R55). -/
def UtcconstLayout.fields (l : UtcconstLayout) : List FieldSpec := l.cal.fields ++ [l.pdop, l.hdop, l.vdop, l.vis]

/-- The fields of `UTCTIME` (`30_encoding.md` R56). -/
def UtctimeLayout.fields (l : UtctimeLayout) : List FieldSpec := l.cal.fields ++ [l.tow, l.week]

/-- The fields of `CHANSTAT` (`30_encoding.md` R58). -/
def ChanstatLayout.fields (l : ChanstatLayout) : List FieldSpec :=
  [l.index, l.prn, l.flags, l.snr, l.az, l.el, l.almeph]

/-- Every field lies inside a frame of the length the table gives the identifier; an identifier outside the table is legal
with any fields (`00_scope.md` R5(c), (d)). -/
def Config.layoutOk (c : Config) (i : Ident) (fields : List FieldSpec) : Bool :=
  match c.lengthOf i with
  | some L => fields.all (FieldSpec.inFrame L)
  | none => true

/-- `WF(Config)` of `00_scope.md` R5 (a) to (d), on a list that is a map: one entry an identifier (log entry 6). -/
def Config.wf (c : Config) : Bool :=
  decide (4 ≤ c.bufMax) &&
  c.lenTable.all (fun e => decide (4 ≤ e.2) && decide (e.2 ≤ c.bufMax)) &&
  decide ((c.lenTable.map Prod.fst).Nodup) &&
  c.layoutOk identFastfix c.layout.fastfix.fields &&
  c.layoutOk identGpsfix c.layout.gpsfix.fields &&
  c.layoutOk identUtcconst c.layout.utcconst.fields &&
  c.layoutOk identUtctime c.layout.utctime.fields &&
  c.layoutOk identChanstat c.layout.chanstat.fields

end Sys2Proof
end

