-- ==== Sys2Proof/Decode.lean ====
section
/-! DEFINITION. The default encoding tables, the decoders of both levels (total, rejecting by name), and after them the
encoder, the stuffing functions and the stream notation. -/

namespace Sys2Proof

/-! ## Default tables (`00_scope.md` R4; `30_encoding.md` R53 to R59) -/

/-- Bits 0 to 3 are position, altitude, heading, speed (`30_encoding.md` R51(e)). -/
def defaultValidityBits : ValidityBits := { posBit := 0, altBit := 1, hdgBit := 2, spdBit := 3 }

/-- Seven one-byte calendar fields without gaps from offset `o` (`30_encoding.md` R55, R56, R59). -/
def calendarFrom (o : Nat) : CalendarLayout :=
  { year := ⟨o, 1⟩, month := ⟨o + 1, 1⟩, day := ⟨o + 2, 1⟩, hour := ⟨o + 3, 1⟩, minute := ⟨o + 4, 1⟩,
    second := ⟨o + 5, 1⟩, offset := ⟨o + 6, 1⟩ }

/-- The default `LAYOUT`: the tables of `30_encoding.md` R54 to R58. -/
def defaultLayout : Layout where
  fastfix :=
    { status := ⟨3, 1⟩, valid := defaultValidityBits, age := ⟨4, 1⟩, tow := ⟨5, 4⟩, lat := ⟨9, 4⟩, lon := ⟨13, 4⟩,
      alt := ⟨17, 2⟩ }
  gpsfix :=
    { status1 := ⟨3, 1⟩, fixSrcLo := 0, altHoldLo := 6, status2 := ⟨4, 1⟩, valid := defaultValidityBits,
      lat := ⟨5, 4⟩, lon := ⟨9, 4⟩, alt := ⟨13, 2⟩, hdg := ⟨15, 2⟩, spd := ⟨17, 2⟩ }
  utcconst := { cal := calendarFrom 3, pdop := ⟨10, 2⟩, hdop := ⟨12, 2⟩, vdop := ⟨14, 2⟩, vis := ⟨16, 1⟩, visLo := 0 }
  utctime := { tow := ⟨3, 4⟩, week := ⟨7, 2⟩, cal := calendarFrom 9 }
  chanstat :=
    { index := ⟨3, 1⟩, prn := ⟨4, 1⟩, flags := ⟨5, 1⟩, visibleBit := 0, hasTrackedBit := 1, trackingBit := 2,
      meetsMaskBit := 3, snr := ⟨6, 1⟩, az := ⟨7, 1⟩, el := ⟨8, 1⟩, almeph := ⟨9, 1⟩, almLo := 0, ephLo := 2 }

/-- The default `LEN_TABLE` (`30_encoding.md` R53). -/
def defaultLenTable : List (Ident × Nat) :=
  [(identFastfix, 20), (identGpsfix, 20), (identUtcconst, 18), (identUtctime, 17), (identChanstat, 11)]

/-- The default `INIT`: all bits zero (`00_scope.md` R4). -/
def defaultInit : InitValues :=
  { age := 0, tow := 0, latRaw := 0, lonRaw := 0, alt := 0, hdgRaw := 0, spd := 0, visCount := 0, trkCount := 0,
    fixSrc := 0, altHold := 0, year := 0, month := 0, day := 0, hour := 0, minute := 0, second := 0, utcOff := 0,
    week := 0, gpsTow := 0 }

/-- The default configuration (`00_scope.md` R4). -/
def defaultConfig : Config :=
  { storeSync := false, dispatchInvalid := true, bufMax := 256, lenTable := defaultLenTable, layout := defaultLayout,
    throttleTicks := 5000, init := defaultInit }

/-! ## Byte order and bit fields -/

/-- The sum of `bs[k] << (8*k)`: a little-endian number (`20_memory.md` R33). -/
def leNat : List Byte → Nat
  | [] => 0
  | b :: bs => b.toNat + 256 * leNat bs

/-- `MemRead(off, n)`: an `n`-byte little-endian read, defined only inside the bytes (`00_scope.md` R7). -/
def memRead (bytes : List Byte) (off n : Nat) : Option Nat :=
  if off + n ≤ bytes.length then some (leNat ((bytes.drop off).take n)) else none

/-- `MemReadBE(off, 2)`: the one big-endian read (`00_scope.md` R7, `20_memory.md` R32). -/
def memReadBE (bytes : List Byte) (off : Nat) : Option Ident :=
  match bytes[off]?, bytes[off + 1]? with
  | some hi, some lo => some (hi ++ lo)
  | _, _ => none

/-- `v[lo + n - 1 : lo]` of a byte (`00_scope.md` R6, `30_encoding.md` R51(d)); bits above bit 7 are free (log entry 27). -/
def bitsOf (v : Byte) (lo n : Nat) : BitVec n :=
  if lo + n ≤ 8 then v.extractLsb' lo n else v.extractLsb' lo n ||| (Config.freeBits v lo n <<< (8 - lo))

/-- The arithmetic sum of the bytes modulo 256 (`30_encoding.md` R52). -/
def byteSum (bytes : List Byte) : Byte := bytes.foldl (· + ·) 0

/-! ## Level 1 -/

/-- `SYNC`, 0x81 (`30_encoding.md` R45). -/
abbrev syncByte : Byte := 0x81
/-- `ESC`, 0x80 (`30_encoding.md` R45). -/
abbrev escByte : Byte := 0x80
/-- `END`, 0x82 (`30_encoding.md` R45). -/
abbrev endMarker : Byte := 0x82

/-- The class of a wire byte, selected by its full value; `DATA` is the default (`30_encoding.md` R45). -/
def decodeByte (b : Byte) : Instr :=
  if b = syncByte then .sync
  else if b = escByte then .esc
  else if b = endMarker then .endByte
  else .data b

/-! ## Level 2 -/

/-- A level-2 instruction: what a completed frame decodes to (`30_encoding.md` R53). -/
inductive Message where
  | fastfix (mark : Byte) (f : FastfixFields)
  | gpsfix (mark : Byte) (f : GpsfixFields)
  | utcconst (mark : Byte) (f : UtcconstFields)
  | utctime (mark : Byte) (f : UtctimeFields)
  | chanstat (mark : Byte) (f : ChanstatFields)
  | unknown (mark : Byte) (ident : Ident)
deriving DecidableEq, Repr

/-- The message as an instruction. -/
def Message.toInstr : Message → Instr
  | .fastfix m f => .fastfix m f
  | .gpsfix m f => .gpsfix m f
  | .utcconst m f => .utcconst m f
  | .utctime m f => .utctime m f
  | .chanstat m f => .chanstat m f
  | .unknown m i => .unknown m i

/-- Why a list of bytes is no frame of the layout. Neither can occur for a frame the framing machine completes in a
well-formed configuration (`20_memory.md` R41). -/
inductive DecodeError where
  /-- Fewer than three bytes: there is no identifier. -/
  | noIdentifier
  /-- A field of the layout lies outside the bytes. -/
  | fieldOutside
deriving DecidableEq, Repr

/-- The number `v` of a field in a register of `w` bits: zero-extended (`30_encoding.md` R51(b), (c), `20_memory.md` R35;
for widths that no rule names, log entry 6), and a free value where it does not fit (log entry 24). -/
def FieldSpec.assemble (f : FieldSpec) (w v : Nat) : BitVec w :=
  if v < 2 ^ w then BitVec.ofNat w v else Config.freeField f v w

/-- `f(name)` for a whole-byte field that goes into `w` bits: `MemRead(off, width)` (`41_dispatch.md`, before section 1). -/
def FieldSpec.read (f : FieldSpec) (bytes : List Byte) (w : Nat) : Option (BitVec w) :=
  (memRead bytes f.off f.width).map (f.assemble w)

/-- `buf[off]`, the byte that holds bit fields or the channel index, whatever the width (`30_encoding.md` R51(c), (d), (f));
an empty field at the end of the frame has no byte, and its value is free (log entry 24). -/
def FieldSpec.readByte (f : FieldSpec) (bytes : List Byte) : Option Byte :=
  (memRead bytes f.off f.width).map fun v => bytes.getD f.off (Config.freeField f v 8)

/-- Bit `n` of a status byte as a flag. -/
def flagOf (v : Byte) (n : Nat) : Bool := bitsOf v n 1 == 1#1

/-- The four validity flags of a status byte (`30_encoding.md` R51(e)). -/
def ValidityBits.extract (l : ValidityBits) (v : Byte) : Validity :=
  { pos := flagOf v l.posBit, alt := flagOf v l.altBit, hdg := flagOf v l.hdgBit, spd := flagOf v l.spdBit }

def CalendarLayout.read (l : CalendarLayout) (bytes : List Byte) : Option Calendar := do
  let year ← l.year.read bytes 16
  let month ← l.month.read bytes 8
  let day ← l.day.read bytes 8
  let hour ← l.hour.read bytes 8
  let minute ← l.minute.read bytes 8
  let second ← l.second.read bytes 8
  let offset ← l.offset.read bytes 8
  return { year, month, day, hour, minute, second, offset }

/-- The operands of `FASTFIX` (`30_encoding.md` R54). -/
def FastfixLayout.read (l : FastfixLayout) (bytes : List Byte) : Option FastfixFields := do
  let status ← l.status.readByte bytes
  let age ← l.age.read bytes 8
  let tow ← l.tow.read bytes 32
  let lat ← l.lat.read bytes 32
  let lon ← l.lon.read bytes 32
  let alt ← l.alt.read bytes 16
  return { status := l.valid.extract status, age, tow, lat, lon, alt }

/-- The operands of `GPSFIX` (`30_encoding.md` R57). -/
def GpsfixLayout.read (l : GpsfixLayout) (bytes : List Byte) : Option GpsfixFields := do
  let status1 ← l.status1.readByte bytes
  let status2 ← l.status2.readByte bytes
  let lat ← l.lat.read bytes 32
  let lon ← l.lon.read bytes 32
  let alt ← l.alt.read bytes 16
  let hdg ← l.hdg.read bytes 16
  let spd ← l.spd.read bytes 16
  return { fixSrc := bitsOf status1 l.fixSrcLo 6, altHold := bitsOf status1 l.altHoldLo 2,
           status := l.valid.extract status2, lat, lon, alt, hdg, spd }

/-- The operands of `UTCCONST` (`30_encoding.md` R55). -/
def UtcconstLayout.read (l : UtcconstLayout) (bytes : List Byte) : Option UtcconstFields := do
  let cal ← l.cal.read bytes
  let pdop ← l.pdop.read bytes 16
  let hdop ← l.hdop.read bytes 16
  let vdop ← l.vdop.read bytes 16
  let vis ← l.vis.readByte bytes
  return { cal, pdop, hdop, vdop, vis := bitsOf vis l.visLo 4 }

/-- The operands of `UTCTIME` (`30_encoding.md` R56). -/
def UtctimeLayout.read (l : UtctimeLayout) (bytes : List Byte) : Option UtctimeFields := do
  let tow ← l.tow.read bytes 32
  let week ← l.week.read bytes 16
  let cal ← l.cal.read bytes
  return { tow, week, cal }

/-- The operands of `CHANSTAT` (`30_encoding.md` R58). -/
def ChanstatLayout.read (l : ChanstatLayout) (bytes : List Byte) : Option ChanstatFields := do
  let index ← l.index.readByte bytes
  let prn ← l.prn.read bytes 8
  let flags ← l.flags.readByte bytes
  let snr ← l.snr.read bytes 8
  let az ← l.az.read bytes 16
  let el ← l.el.read bytes 8
  let almeph ← l.almeph.readByte bytes
  return { index, prn, visible := flagOf flags l.visibleBit, hasTracked := flagOf flags l.hasTrackedBit,
           tracking := flagOf flags l.trackingBit, meetsMask := flagOf flags l.meetsMaskBit, snr, az, el,
           alm := bitsOf almeph l.almLo 2, eph := bitsOf almeph l.ephLo 2 }

/-- Operands that could be read make a message, others the error of that name. -/
def messageOr {α : Type} (make : α → Message) : Option α → Except DecodeError Message
  | some f => .ok (make f)
  | none => .error .fieldOutside

/-- Level-2 decoding: the identifier, bytes 1 and 2 of the frame, selects the message (`30_encoding.md` R50, R53); its
operands are the fields of the layout. -/
def decodeFrame (lay : Layout) (bytes : List Byte) : Except DecodeError Message :=
  match bytes[0]?, memReadBE bytes 1 with
  | some mark, some ident =>
    if ident = identFastfix then messageOr (.fastfix mark) (lay.fastfix.read bytes)
    else if ident = identUtcconst then messageOr (.utcconst mark) (lay.utcconst.read bytes)
    else if ident = identUtctime then messageOr (.utctime mark) (lay.utctime.read bytes)
    else if ident = identGpsfix then messageOr (.gpsfix mark) (lay.gpsfix.read bytes)
    else if ident = identChanstat then messageOr (.chanstat mark) (lay.chanstat.read bytes)
    else .ok (.unknown mark ident)
  | _, _ => .error .noIdentifier

/-! ## The words of the opcode table -/

/-- The frame of a 24-bit header word `H` (`30_encoding.md` R50: `MARK` in bits 23:16 is offset 0, `IDH` offset 1, `IDL`
offset 2), its operand bytes zero up to the length the table gives the identifier. -/
def tableFrame (c : Config) (w : Nat) : List Byte :=
  let header : List Byte := [BitVec.ofNat 8 (w / 65536), BitVec.ofNat 8 (w / 256), BitVec.ofNat 8 w]
  header ++ List.replicate ((c.lengthOf (BitVec.ofNat 16 w)).getD 3 - 3) 0

/-- The instruction the decoders read from an opcode-table word: one wire byte for 8 bits, a header and zero operands for
24 bits, in the default configuration. -/
def decodeTableWord (nbits w : Nat) : Option Instr :=
  if nbits = 8 then some (decodeByte (BitVec.ofNat 8 w))
  else if nbits = 24 then
    match decodeFrame defaultLayout (tableFrame defaultConfig w) with
    | .ok m => some m.toInstr
    | .error _ => none
  else none

/-! ## The encoder (the sender's side, default layout) -/

/-- `LE16`, `LE32`: the `n` low bytes of `v`, least significant first (`30_encoding.md` R61(f)). -/
def leBytes : Nat → Nat → List Byte
  | 0, _ => []
  | n + 1, v => BitVec.ofNat 8 v :: leBytes n (v / 256)

/-- A byte with the four flags in bits 0 to 3, lowest first, and zeros above (`30_encoding.md` R51(e), R58). -/
def nibbleByte (b0 b1 b2 b3 : Bool) : Byte :=
  0#4 ++ BitVec.ofBool b3 ++ BitVec.ofBool b2 ++ BitVec.ofBool b1 ++ BitVec.ofBool b0

/-- The status byte of four validity flags (`30_encoding.md` R51(e)). -/
def Validity.toByte (v : Validity) : Byte := nibbleByte v.pos v.alt v.hdg v.spd

/-- `status1` of `GPSFIX`: the fix source in bits 0 to 5, the altitude hold in bits 6 and 7 (`30_encoding.md` R57). -/
def status1Byte (fixSrc : BitVec 6) (altHold : BitVec 2) : Byte := altHold ++ fixSrc

/-- `vis` of `UTCCONST`: the count in bits 0 to 3, zeros above (`30_encoding.md` R55). -/
def visByte (vis : BitVec 4) : Byte := 0#4 ++ vis

/-- `almeph` of `CHANSTAT`: the almanac status in bits 0 and 1, the ephemeris status in bits 2 and 3, zeros above
(`30_encoding.md` R58). -/
def almephByte (alm eph : BitVec 2) : Byte := 0#4 ++ eph ++ alm

/-- The seven calendar bytes (`30_encoding.md` R55, R56). -/
def Calendar.bytes (c : Calendar) : List Byte :=
  [c.year.setWidth 8, c.month, c.day, c.hour, c.minute, c.second, c.offset]

/-- The payload of a message, its fields in the order and widths of `30_encoding.md` R54 to R58; ignored bits are 0. -/
def Message.payload : Message → List Byte
  | .fastfix _ f =>
    [f.status.toByte, f.age] ++ leBytes 4 f.tow.toNat ++ leBytes 4 f.lat.toNat ++ leBytes 4 f.lon.toNat ++
      leBytes 2 f.alt.toNat
  | .gpsfix _ f =>
    [status1Byte f.fixSrc f.altHold, f.status.toByte] ++ leBytes 4 f.lat.toNat ++ leBytes 4 f.lon.toNat ++
      leBytes 2 f.alt.toNat ++ leBytes 2 f.hdg.toNat ++ leBytes 2 f.spd.toNat
  | .utcconst _ f =>
    f.cal.bytes ++ leBytes 2 f.pdop.toNat ++ leBytes 2 f.hdop.toNat ++ leBytes 2 f.vdop.toNat ++ [visByte f.vis]
  | .utctime _ f => leBytes 4 f.tow.toNat ++ leBytes 2 f.week.toNat ++ f.cal.bytes
  | .chanstat _ f =>
    [f.index, f.prn, nibbleByte f.visible f.hasTracked f.tracking f.meetsMask, f.snr, f.az.setWidth 8, f.el,
      almephByte f.alm f.eph]
  | .unknown _ _ => []

/-- `MARK` of a message's header (`30_encoding.md` R50). -/
def Message.mark : Message → Byte
  | .fastfix m _ => m
  | .gpsfix m _ => m
  | .utcconst m _ => m
  | .utctime m _ => m
  | .chanstat m _ => m
  | .unknown m _ => m

/-- The identifier of a message (`30_encoding.md` R53). -/
def Message.ident : Message → Ident
  | .fastfix _ _ => identFastfix
  | .gpsfix _ _ => identGpsfix
  | .utcconst _ _ => identUtcconst
  | .utctime _ _ => identUtctime
  | .chanstat _ _ => identChanstat
  | .unknown _ i => i

/-- The sum byte that makes the bytes add to 0 modulo 256 (`30_encoding.md` R52). -/
def sumByte (body : List Byte) : Byte := -byteSum body

/-- The buffered bytes of a frame: header, payload, sum byte (`20_memory.md` R36). -/
def frameBytes (mark : Byte) (ident : Ident) (payload : List Byte) : List Byte :=
  let body := [mark, bitsOfIdent ident 8, bitsOfIdent ident 0] ++ payload
  body ++ [sumByte body]
where
  /-- The byte of the identifier from bit `lo` up. -/
  bitsOfIdent (i : Ident) (lo : Nat) : Byte := i.extractLsb' lo 8

/-- The frame of a message (`30_encoding.md` R54 to R58). -/
def encodeMessage (m : Message) : List Byte := frameBytes m.mark m.ident m.payload

/-- The words of an instruction: one wire byte at level 1, the buffered bytes of a valid frame at level 2. -/
def encode : Instr → List Byte
  | .sync => [syncByte]
  | .esc => [escByte]
  | .endByte => [endMarker]
  | .data b => [b]
  | .fastfix m f => encodeMessage (.fastfix m f)
  | .gpsfix m f => encodeMessage (.gpsfix m f)
  | .utcconst m f => encodeMessage (.utcconst m f)
  | .utctime m f => encodeMessage (.utctime m f)
  | .chanstat m f => encodeMessage (.chanstat m f)
  | .unknown m i => encodeMessage (.unknown m i)

/-! ## Stuffing and the stream notation -/

/-- One of the three byte values with a framing meaning (`30_encoding.md` R48). -/
def isSpecial (x : Byte) : Bool := x == escByte || x == syncByte || x == endMarker

/-- `STUFF(p)`: each special byte becomes the pair `0x80, x & 0x7F` (`30_encoding.md` R48). -/
def stuff : List Byte → List Byte
  | [] => []
  | x :: p => if isSpecial x then escByte :: (x &&& 0x7F) :: stuff p else x :: stuff p

/-- The scan of `UNSTUFF` with its one-bit flag (`30_encoding.md` R47). -/
def unstuffFrom : Bool → List Byte → List Byte
  | _, [] => []
  | true, x :: w => (x ||| 0x80) :: unstuffFrom false w
  | false, x :: w => if x = escByte then unstuffFrom true w else x :: unstuffFrom false w

/-- `UNSTUFF(w)` (`30_encoding.md` R47). -/
def unstuff (w : List Byte) : List Byte := unstuffFrom false w

/-- Whether a wire list is canonical from a scan state on: every escape is followed by 0x00, 0x01 or 0x02, no 0x81 or
0x82 stands elsewhere, and no escape dangles at the end (`30_encoding.md` R49(b)). -/
def canonicalFrom : Bool → List Byte → Bool
  | e, [] => !e
  | true, x :: w => (x == 0x00 || x == 0x01 || x == 0x02) && canonicalFrom false w
  | false, x :: w => if x = escByte then canonicalFrom true w else x != syncByte && x != endMarker && canonicalFrom false w

/-- Canonical wire lists (`30_encoding.md` R49(b)). -/
def canonical (w : List Byte) : Bool := canonicalFrom false w

/-- A frame's bytes on the wire, for `STORE_SYNC = 0` (`30_encoding.md` R46). -/
def wireOf (bytes : List Byte) : List Byte := syncByte :: (stuff bytes ++ [endMarker])

/-- `FRAME(mark, ident, payload)` of `30_encoding.md` R61(d); with `STORE_SYNC = 1` the sync marker is itself byte 0. -/
def wireFrame (storeSync : Bool) (mark : Byte) (ident : Ident) (payload : List Byte) : List Byte :=
  if storeSync then wireOf ((frameBytes syncByte ident payload).drop 1)
  else wireOf (frameBytes mark ident payload)

/-- `FRAME_BAD(mark, ident, payload, d)` of `30_encoding.md` R61(e): the sum byte is off by `d`. -/
def wireFrameBad (storeSync : Bool) (mark : Byte) (ident : Ident) (payload : List Byte) (d : Byte) : List Byte :=
  let bytes := frameBytes (if storeSync then syncByte else mark) ident payload
  let bad := bytes.dropLast ++ [bytes.getLastD 0 + d]
  wireOf (if storeSync then bad.drop 1 else bad)

end Sys2Proof
end

