-- ==== Sys2Proof/Machine/State.lean ====
section
/-! DEFINITION. The state of the block as plain data (10_state.md), its inputs and events (`00_scope.md` R3), the ways a
step can stop, and the state after reset. -/

namespace Sys2Proof.Machine

/-! ## Framing registers -/

/-- `st`, the framing state (`10_state.md` R10). -/
inductive FrameSt where
  | idle
  | inFrame
deriving DecidableEq, Repr

/-- `exp`, the expected-length register (`10_state.md` R13). -/
inductive Expected where
  | undetermined
  | known (L : Nat)
  | unknown
deriving DecidableEq, Repr

/-- The working buffer: offset `k` holds the `(k+1)`-th buffered byte, offsets from the length on hold nothing
(`10_state.md` R12, `20_memory.md` R31). -/
abbrev Memory := List Byte

/-- The byte at an offset; nothing at offsets from `len` on. -/
def Memory.read (m : Memory) (a : Nat) : Option Byte := m[a]?

/-- The buffer is within its capacity (`10_state.md` R12). Address and byte pairs are in canonical form by construction:
the addresses of `Memory.cells` are `0 .. len-1`, rising. -/
def Memory.wf (cap : Nat) (m : Memory) : Bool := decide (m.length ≤ cap)

/-- The buffer as (address, byte) pairs. -/
def Memory.cells (m : Memory) : List Host.Cell := (List.range m.length).zip m

/-! ## Navigation State -/

/-- `Position` (`10_state.md` R16), every quantity raw. -/
structure Position where
  posValid : Bool
  altValid : Bool
  hdgValid : Bool
  spdValid : Bool
  age : Byte
  tow : Word
  latRaw : Word
  lonRaw : Word
  alt : Half
  hdgRaw : Half
  spd : Half
  hdopRaw : Half
  vdopRaw : Half
  pdopRaw : Half
  visCount : BitVec 4
  trkCount : BitVec 4
  fixSrc : BitVec 6
  altHold : BitVec 2
deriving DecidableEq, Repr

/-- `GpsTime` (`10_state.md` R17). -/
structure GpsTime where
  year : Half
  month : Byte
  day : Byte
  hour : Byte
  minute : Byte
  second : Byte
  utcOff : Byte
  week : Half
  tow : Word
deriving DecidableEq, Repr

/-- One populated slot of `Channel` (`10_state.md` R18). -/
structure ChannelRec where
  prn : Byte
  visible : Bool
  hasTracked : Bool
  tracking : Bool
  meetsMask : Bool
  snr : Byte
  az : Half
  el : Byte
  alm : BitVec 2
  eph : BitVec 2
deriving DecidableEq, Repr

/-- A slot index, 0 to 11 (`20_memory.md` R42). -/
abbrev SlotIndex := Fin 12

/-- `Channel[0..11]`: twelve slots, each absent or a record (`10_state.md` R18). -/
abbrev Channels := Vector (Option ChannelRec) 12

/-! ## Inputs and events -/

/-- One input of a step (`00_scope.md` R3): a byte with the clock value at its step, or the permanent failure of the
source. -/
inductive Input where
  | byte (b : Byte) (now : Nat)
  | sourceFail
deriving DecidableEq, Repr

/-- The seven fault causes (`00_scope.md` R3, `60_exceptions.md` R115). -/
inductive Cause where
  | framingFault
  | checksumMismatch
  | unknownMessageId
  | channelIndexOutOfRange
  | sourceUnavailable
  | shortFrame
  | bufferOverflow
deriving DecidableEq, Repr

/-- A cause that `raise` reports, with the `info` recorded for it (`60_exceptions.md` R115). `UnknownMessageId` is
reported by `EvDrop` alone (R118), so it has no constructor here. -/
inductive Report where
  | framingFault (ident : Ident) (L : Nat)
  | checksumMismatch (ident : Ident)
  | channelIndexOutOfRange (raw : Byte)
  | sourceUnavailable
  | shortFrame (len : Nat)
  | bufferOverflow (len : Nat)
deriving DecidableEq, Repr

/-- The cause of a report (`60_exceptions.md` R115). -/
def Report.cause : Report → Cause
  | .framingFault _ _ => .framingFault
  | .checksumMismatch _ => .checksumMismatch
  | .channelIndexOutOfRange _ => .channelIndexOutOfRange
  | .sourceUnavailable => .sourceUnavailable
  | .shortFrame _ => .shortFrame
  | .bufferOverflow _ => .bufferOverflow

/-- The message types a dispatch can name (`00_scope.md` R3). -/
inductive MsgType where
  | fastfix
  | gpsfix
  | utcconst
  | utctime
  | chanstat
deriving DecidableEq, Repr

/-- An encoder request (`42_encoder_requests.md` R105). -/
inductive EncReq where
  | gga
  | rmc
  | gsa
  | vtg
  | zda
  | gsv (k n : Nat) (slots : List SlotIndex)
deriving DecidableEq, Repr

/-- An event of a step (`00_scope.md` R3). -/
inductive Event where
  /-- `EvFrame(bytes, valid, scanned)`. -/
  | frame (bytes : List Byte) (valid scanned : Bool)
  /-- `EvFault(cause, info)`. -/
  | fault (r : Report)
  /-- `EvDrop(cause, ident)`. -/
  | drop (cause : Cause) (ident : Ident)
  /-- `EvDispatch(msg, due, reqs)`. -/
  | dispatch (msg : MsgType) (due : Bool) (reqs : List EncReq)
deriving DecidableEq, Repr

/-- The record of a completed frame (`10_state.md` R24); it is no stored state. -/
structure Frame where
  bytes : List Byte
  valid : Bool
  scanned : Bool
deriving DecidableEq, Repr

/-! ## The state -/

/-- Everything the spec gives the block, and the three fields through which the model takes inputs and gives events. -/
structure State where
  /-- The parameters (`00_scope.md` R4); no rule writes them. -/
  config : Config
  /-- `st` (`10_state.md` R10). -/
  st : FrameSt
  /-- `esc` (`10_state.md` R11). -/
  esc : Bool
  /-- `buf`, whose length is `len` (`10_state.md` R12). -/
  buf : Memory
  /-- `exp` (`10_state.md` R13). -/
  exp : Expected
  /-- `sum`, the running accumulator (`10_state.md` R14). -/
  sum : Byte
  /-- `fatal` (`10_state.md` R15). -/
  fatal : Bool
  /-- `Position` (`10_state.md` R16). -/
  position : Position
  /-- `GpsTime` (`10_state.md` R17). -/
  gpsTime : GpsTime
  /-- `Channel[0..11]` (`10_state.md` R18). -/
  channel : Channels
  /-- `last_gsv` (`10_state.md` R19). -/
  lastGsv : Option Nat
  /-- The inputs that wait, the next one first. The model's own field (log entry 1, DESIGN CHOICE). -/
  inputs : List Input
  /-- The clock value of the byte being processed. The model's own field (log entry 3, DESIGN CHOICE). -/
  now : Nat
  /-- The event list of the last step. The model's own field (log entry 4, DESIGN CHOICE). -/
  events : List Event
deriving DecidableEq, Repr

/-! ## How a step can stop -/

/-- Faults of the model. The spec gives the block none: its seven causes are events (`60_exceptions.md` R115). -/
inductive Fault where
  /-- The identifier is read from a buffer or frame of fewer than three bytes. Raised by the framing fault (R68), by
  LOOKUP (R75) and by DISPATCH (R85), only in states no run reaches (`20_memory.md` R41). Safe: the model stops. -/
  | identifierOutsideFrame
  /-- A field of the layout is read outside the completed frame. Raised by DISPATCH (R85), only in states no run of a
  well-formed configuration reaches (`20_memory.md` R41). Safe: the model stops. -/
  | fieldOutsideFrame
deriving DecidableEq, Repr

/-- Refusals of the model. -/
inductive Refusal where
  /-- An instruction without a meaning. No arm of `exec` answers it. Safe: the model stops. -/
  | notModelled (mnemonic : String)
  /-- The configuration is not well-formed: a model refuses it (`00_scope.md` R5). Raised by `step`. Safe: the model
  stops. -/
  | illFormedConfig
deriving DecidableEq, Repr

/-- What a meaning answers. -/
abbrev Result := Host.Outcome State Fault Refusal

/-! ## Reset -/

/-- `Position` after reset: flags 0, the three DOPs 0xFF00, every other field from `INIT` (`10_state.md` R22). -/
def Position.reset (i : InitValues) : Position :=
  { posValid := false, altValid := false, hdgValid := false, spdValid := false, age := i.age, tow := i.tow,
    latRaw := i.latRaw, lonRaw := i.lonRaw, alt := i.alt, hdgRaw := i.hdgRaw, spd := i.spd, hdopRaw := 0xFF00,
    vdopRaw := 0xFF00, pdopRaw := 0xFF00, visCount := i.visCount, trkCount := i.trkCount, fixSrc := i.fixSrc,
    altHold := i.altHold }

/-- `GpsTime` after reset: every field from `INIT` (`10_state.md` R22). -/
def GpsTime.reset (i : InitValues) : GpsTime :=
  { year := i.year, month := i.month, day := i.day, hour := i.hour, minute := i.minute, second := i.second,
    utcOff := i.utcOff, week := i.week, tow := i.gpsTow }

/-- `State.reset(Config)` of `70_reset_and_hazards.md` R135: the table of `10_state.md` R22. -/
def State.resetWith (c : Config) : State :=
  { config := c, st := .idle, esc := false, buf := [], exp := .undetermined, sum := 0, fatal := false,
    position := Position.reset c.init, gpsTime := GpsTime.reset c.init, channel := Vector.replicate 12 none,
    lastGsv := none, inputs := [], now := 0, events := [] }

/-- The machine right after reset, in the default configuration (log entries 7 and 8). -/
def State.reset : State := State.resetWith defaultConfig

end Sys2Proof.Machine
end

