-- ==== Sys2Proof/Machine/Ops.lean ====
section
/-! DEFINITION. The named operations over the registers: one definition for each way a rule writes them, taking a fault
(60_exceptions.md), and the procedures APPEND and LOOKUP (40_framing.md). There is no return from a fault: after it the
machine is in `Idle` and resumes with the next SYNC byte (`60_exceptions.md` R126). -/

namespace Sys2Proof.Machine

/-! ## Register writes -/

/-- `emit E` (`00_scope.md` R7). -/
def State.emit (s : State) (e : Event) : State := { s with events := s.events ++ [e] }

/-- `TO_IDLE` (`10_state.md` R23). -/
def State.toIdle (s : State) : State :=
  { s with st := .idle, esc := false, buf := [], exp := .undetermined, sum := 0 }

/-- `InFrame` with every other framing register clear (`40_framing.md` R66). -/
def State.enterFrame (s : State) : State :=
  { s with st := .inFrame, esc := false, buf := [], exp := .undetermined, sum := 0 }

/-- `esc <- e`. -/
def State.setEsc (s : State) (e : Bool) : State := { s with esc := e }

/-- `exp <- x`. -/
def State.setExp (s : State) (x : Expected) : State := { s with exp := x }

/-- `buf[len] <- d ; len <- len + 1 ; sum <- (sum + d) mod 256` (`40_framing.md` R74). -/
def State.pushByte (s : State) (d : Byte) : State := { s with buf := s.buf ++ [d], sum := s.sum + d }

/-- `fatal <- 1`. -/
def State.setFatal (s : State) : State := { s with fatal := true }

/-- `Position <- p`. -/
def State.setPosition (s : State) (p : Position) : State := { s with position := p }

/-- `GpsTime <- t`. -/
def State.setGpsTime (s : State) (t : GpsTime) : State := { s with gpsTime := t }

/-- `Channel[i] <- Some c`: the slot is replaced whole (`41_dispatch.md` R90). -/
def State.setChannel (s : State) (i : SlotIndex) (c : ChannelRec) : State :=
  { s with channel := s.channel.set i (some c) }

/-- `Position.trk_count <- n`, 4 bits. -/
def State.setTrkCount (s : State) (n : Nat) : State :=
  { s with position := { s.position with trkCount := BitVec.ofNat 4 n } }

/-- `last_gsv <- Some t`. -/
def State.setLastGsv (s : State) (t : Nat) : State := { s with lastGsv := some t }

/-- The event list of a step starts empty. -/
def State.clearEvents (s : State) : State := { s with events := [] }

/-- An input byte is consumed and its clock value is the one this step sees (`00_scope.md` R3). -/
def State.takeByte (s : State) (rest : List Input) (now : Nat) : State := { s with inputs := rest, now := now }

/-- An input is consumed and nothing else. -/
def State.dropInput (s : State) (rest : List Input) : State := { s with inputs := rest }

/-! ## Reads -/

/-- `exp = Known L and len = L` (`40_framing.md` R65 line 5). -/
def State.full (s : State) : Bool := s.exp == .known s.buf.length

/-- The value of `exp` for an identifier: `Known L` from the table, else `Unknown` (`40_framing.md` R75). -/
def expectedFor (c : Config) (i : Ident) : Expected :=
  match c.lengthOf i with
  | some L => .known L
  | none => .unknown

/-! ## Taking a fault -/

/-- `raise F(info)`: the event, and the effect 60_exceptions.md gives the cause (`00_scope.md` R7, `60_exceptions.md`
R116, R117, R119 to R122, R125). Nothing is saved and nothing is vectored (R125). -/
def raise (r : Report) (s : State) : State :=
  match r with
  | .framingFault _ _ => (s.emit (.fault r)).toIdle
  | .shortFrame _ => (s.emit (.fault r)).toIdle
  | .bufferOverflow _ => (s.emit (.fault r)).toIdle
  | .sourceUnavailable => (s.emit (.fault r)).toIdle.setFatal
  | .checksumMismatch _ => s.emit (.fault r)
  | .channelIndexOutOfRange _ => s.emit (.fault r)

/-! ## Procedures of the framing machine -/

/-- `LOOKUP` (`40_framing.md` R75). -/
def lookup (s : State) : Result :=
  match memReadBE s.buf 1 with
  | some ident => .next (s.setExp (expectedFor s.config ident))
  | none => .fault .identifierOutsideFrame

/-- `APPEND(d)` (`40_framing.md` R74). -/
def append (d : Byte) (s : State) : Result :=
  if s.buf.length = s.config.bufMax then .next (raise (.bufferOverflow s.buf.length) s)
  else if s.buf.length + 1 = 3 then lookup (s.pushByte d)
  else .next (s.pushByte d)

end Sys2Proof.Machine
end

