-- ==== Sys2Proof/Machine/Operands.lean ====
section
/-! DEFINITION. What the decode routines compute from their operands and from `Channel`: the index clamp, the visible
list, the tracked count, the calendar write, and the grouping of satellite requests. The fields themselves are
assembled by the decoder (Decode.lean, `30_encoding.md` R51). -/

namespace Sys2Proof.Machine

/-- The slot of `CLAMP(raw)` (`41_dispatch.md` R91, `20_memory.md` R42). -/
def clampSlot (raw : Byte) : SlotIndex :=
  if h : raw.toNat < 12 then ⟨raw.toNat, h⟩ else 11

/-- The report of `CLAMP(raw)`: raised when the unsigned byte is above 11 (`41_dispatch.md` R91). -/
def clampReport (raw : Byte) (s : State) : State :=
  if 11 < raw.toNat then raise (.channelIndexOutOfRange raw) s else s

/-- A slot that is populated and has the flag. -/
def slotHas (flag : ChannelRec → Bool) (slot : Option ChannelRec) : Bool :=
  match slot with
  | some c => flag c
  | none => false

/-- `VISIBLE(Channel)`: the slots with `visible = 1`, ascending (`41_dispatch.md` R92). -/
def visibleSlots (ch : Channels) : List SlotIndex :=
  (List.finRange 12).filter fun k => slotHas ChannelRec.visible ch[k]

/-- `TRACKED(Channel)`: how many slots have `tracking = 1` (`41_dispatch.md` R93). -/
def trackedCount (ch : Channels) : Nat :=
  ((List.finRange 12).filter fun k => slotHas ChannelRec.tracking ch[k]).length

/-- The record a channel message writes, all ten fields together (`41_dispatch.md` R90). -/
def channelRecOf (f : ChanstatFields) : ChannelRec :=
  { prn := f.prn, visible := f.visible, hasTracked := f.hasTracked, tracking := f.tracking, meetsMask := f.meetsMask,
    snr := f.snr, az := f.az, el := f.el, alm := f.alm, eph := f.eph }

/-- The seven calendar writes that `UTCCONST` and `UTCTIME` share (`41_dispatch.md` R87, R88). -/
def writeCalendar (c : Calendar) (t : GpsTime) : GpsTime :=
  { t with year := c.year, month := c.month, day := c.day, hour := c.hour, minute := c.minute, second := c.second,
           utcOff := c.offset }

/-- `due` of `THROTTLE` (`41_dispatch.md` R94): no report yet, or at least `ticks` since the last one, the clock not
behind it. -/
def throttleDue (last : Option Nat) (ticks now : Nat) : Bool :=
  match last with
  | none => true
  | some t => decide (t ≤ now) && decide (ticks ≤ now - t)

/-- The satellite requests of a due report: `ceil(N / 4)` of them, request `k` with the `k`-th group of four slots
(`41_dispatch.md` R94, `42_encoder_requests.md` R107). -/
def gsvRequests (vis : List SlotIndex) : List EncReq :=
  let n := (vis.length + 3) / 4
  (List.range n).map fun j => .gsv (j + 1) n ((vis.drop (4 * j)).take 4)

/-- The requests of `THROTTLE` (`41_dispatch.md` R94). -/
def throttleReqs (due : Bool) (vis : List SlotIndex) : List EncReq := if due then gsvRequests vis else []

/-- The write of `THROTTLE`: `last_gsv <- Some now` when due (`41_dispatch.md` R94). -/
def throttleWrite (due : Bool) (s : State) : State := if due then s.setLastGsv s.now else s

end Sys2Proof.Machine
end

