-- ==== Sys2Proof/Machine/Flags.lean ====
section
/-! DEFINITION. The flags: the four validity flags, and the two flags of a completed frame. `esc`, `exp` and `fatal` are
written by the operations of Ops.lean. -/

namespace Sys2Proof.Machine

/-- `VALID4(s)`: the four validity flags of `Position` (`30_encoding.md` R51(e)). -/
def valid4 (v : Validity) (p : Position) : Position :=
  { p with posValid := v.pos, altValid := v.alt, hdgValid := v.hdg, spdValid := v.spd }

/-- `Frame.valid`: the sum of the buffered bytes modulo 256 is 0 (`30_encoding.md` R52); `sum` holds it
(`10_state.md` R14, log entry 10). -/
def State.checksumOk (s : State) : Bool := s.sum == 0

/-- `Frame.scanned`: the frame was completed in `Unknown` mode (`40_framing.md` R71). -/
def State.scanning (s : State) : Bool := s.exp == .unknown

/-- The frame is complete at an unescaped END (`40_framing.md` R65 line 8). -/
def State.complete (s : State) : Bool := decide (3 ≤ s.buf.length) && (s.scanning || s.full)

/-- The frame the buffer holds at completion (`40_framing.md` R71, `10_state.md` R24). -/
def State.frame (s : State) : Frame := { bytes := s.buf, valid := s.checksumOk, scanned := s.scanning }

end Sys2Proof.Machine
end

