-- ==== Sys2Proof/Machine/Messages.lean ====
section
/-! DEFINITION. The decode routines: the meaning of the six level-2 instructions (`41_dispatch.md` R86 to R95). Each
writes exactly the registers its rule names (`10_state.md` R21) and emits one event. `MARK` takes no part
(`41_dispatch.md` R85). -/

namespace Sys2Proof.Machine

/-- `FASTFIX` (`41_dispatch.md` R86). -/
def execFastfix (f : FastfixFields) (s : State) : Result :=
  .next ((s.setPosition
    { valid4 f.status s.position with
      age := f.age, tow := f.tow, latRaw := f.lat, lonRaw := f.lon, alt := f.alt }).emit
        (.dispatch .fastfix true [.rmc, .vtg]))

/-- `GPSFIX` (`41_dispatch.md` R89). -/
def execGpsfix (f : GpsfixFields) (s : State) : Result :=
  .next ((s.setPosition
    { valid4 f.status s.position with
      fixSrc := f.fixSrc, altHold := f.altHold, latRaw := f.lat, lonRaw := f.lon, alt := f.alt, hdgRaw := f.hdg,
      spd := f.spd }).emit
        (.dispatch .gpsfix true [.gsa, .gga]))

/-- `UTCCONST` (`41_dispatch.md` R87). -/
def execUtcconst (f : UtcconstFields) (s : State) : Result :=
  .next (((s.setGpsTime (writeCalendar f.cal s.gpsTime)).setPosition
    { s.position with pdopRaw := f.pdop, hdopRaw := f.hdop, vdopRaw := f.vdop, visCount := f.vis }).emit
      (.dispatch .utcconst true [.zda, .gsa]))

/-- `UTCTIME` (`41_dispatch.md` R88). -/
def execUtctime (f : UtctimeFields) (s : State) : Result :=
  .next (((s.setGpsTime { writeCalendar f.cal s.gpsTime with tow := f.tow, week := f.week }).setPosition
    { s.position with tow := f.tow }).emit
      (.dispatch .utctime true [.zda]))

/-- The registers of a channel message before the throttle: the report of a clamped index, the slot, and the tracked
count of the slots as written (`41_dispatch.md` R90, R91, R93). -/
def writeSlot (f : ChanstatFields) (s : State) : State :=
  let s1 := (clampReport f.index s).setChannel (clampSlot f.index) (channelRecOf f)
  s1.setTrkCount (trackedCount s1.channel)

/-- `CHANSTAT` (`41_dispatch.md` R90): the slot and the count, then the throttle on the visible list of the slots as
written (R92, R94). -/
def execChanstat (f : ChanstatFields) (s : State) : Result :=
  let s1 := writeSlot f s
  let due := throttleDue s1.lastGsv s1.config.throttleTicks s1.now
  .next ((throttleWrite due s1).emit (.dispatch .chanstat due (throttleReqs due (visibleSlots s1.channel))))

/-- `UNKNOWN`: the frame is dropped (`41_dispatch.md` R95, `60_exceptions.md` R118). -/
def execUnknown (ident : Ident) (s : State) : Result :=
  .next (s.emit (.drop .unknownMessageId ident))

/-- The decode routine a message selects (`41_dispatch.md` R85). -/
def runMessage (m : Message) (s : State) : Result :=
  match m with
  | .fastfix _ f => execFastfix f s
  | .gpsfix _ f => execGpsfix f s
  | .utcconst _ f => execUtcconst f s
  | .utctime _ f => execUtctime f s
  | .chanstat _ f => execChanstat f s
  | .unknown _ i => execUnknown i s

/-- The last part of `DISPATCH`: the frame is decoded and its routine runs (`41_dispatch.md` R85). -/
def dispatchDecoded (bytes : List Byte) (s : State) : Result :=
  match decodeFrame s.config.layout bytes with
  | .ok m => runMessage m s
  | .error .noIdentifier => .fault .identifierOutsideFrame
  | .error .fieldOutside => .fault .fieldOutsideFrame

/-- `DISPATCH(F, now)` with its gates (`41_dispatch.md` R85): the checksum report, the scanned drop, the strict drop,
then the routine. `now` is the state's. -/
def dispatch (f : Frame) (s : State) : Result :=
  match memReadBE f.bytes 1 with
  | none => .fault .identifierOutsideFrame
  | some ident =>
    let s1 := if f.valid then s else raise (.checksumMismatch ident) s
    if f.scanned then execUnknown ident s1
    else if !f.valid && !s.config.dispatchInvalid then .next (s1.emit (.drop .checksumMismatch ident))
    else dispatchDecoded f.bytes s1

end Sys2Proof.Machine
end

