-- ==== Sys2Proof/Machine/Framing.lean ====
section
/-! DEFINITION. The framing machine: the meaning of the four wire byte classes in both states (`40_framing.md` R65 to
R73). Lines 1 and 2 of R65 (`fatal`, `SourceFail`) are the fetch's (Machine/Fetch.lean). -/

namespace Sys2Proof.Machine

/-- Start of frame (`40_framing.md` R66). -/
def startFrame (s : State) : Result :=
  if s.config.storeSync then append syncByte s.enterFrame else .next s.enterFrame

/-- A non-END byte on a buffer that holds the expected length (`40_framing.md` R68). -/
def framingFault (s : State) : Result :=
  match memReadBE s.buf 1 with
  | some ident => .next (raise (.framingFault ident s.buf.length) s)
  | none => .fault .identifierOutsideFrame

/-- An escaped byte (`40_framing.md` R69). -/
def escapedByte (b : Byte) (s : State) : Result := append (b ||| 0x80) (s.setEsc false)

/-- A byte in `InFrame`, lines 5 and 6 of `40_framing.md` R65 before the byte's own meaning `plain`. -/
def receive (b : Byte) (plain : Result) (s : State) : Result :=
  if s.full && b != endMarker then framingFault s
  else if s.esc then escapedByte b s
  else plain

/-- Completion (`40_framing.md` R71). -/
def completeFrame (s : State) : Result :=
  dispatch s.frame (s.toIdle.emit (.frame s.frame.bytes s.frame.valid s.frame.scanned))

/-- `SYNC` (`40_framing.md` R66 in `Idle`; R68, R69, R73 in `InFrame`). -/
def execSync (s : State) : Result :=
  match s.st with
  | .idle => startFrame s
  | .inFrame => receive syncByte (append syncByte s) s

/-- `ESC` (`40_framing.md` R67 in `Idle`; R68, R69, R70 in `InFrame`). -/
def execEsc (s : State) : Result :=
  match s.st with
  | .idle => .next s
  | .inFrame => receive escByte (.next (s.setEsc true)) s

/-- `END` (`40_framing.md` R67 in `Idle`; R69, R71, R72 in `InFrame`). -/
def execEndByte (s : State) : Result :=
  match s.st with
  | .idle => .next s
  | .inFrame =>
    receive endMarker (if s.complete then completeFrame s else .next (raise (.shortFrame s.buf.length) s)) s

/-- `DATA` (`40_framing.md` R67 in `Idle`; R68, R69, R73 in `InFrame`). -/
def execData (b : Byte) (s : State) : Result :=
  match s.st with
  | .idle => .next s
  | .inFrame => receive b (append b s) s

end Sys2Proof.Machine
end

