-- ==== Sys2Proof/Machine/Dispatch.lean ====
section
/-! DEFINITION. The meaning of each instruction, one arm a constructor. -/

namespace Sys2Proof.Machine

def exec (i : Instr) (s : State) : Host.Outcome State Fault Refusal :=
  match i with
  | .sync => Sys2Proof.Machine.execSync s
  | .esc => Sys2Proof.Machine.execEsc s
  | .endByte => Sys2Proof.Machine.execEndByte s
  | .data b => Sys2Proof.Machine.execData b s
  | .fastfix _ f => Sys2Proof.Machine.execFastfix f s
  | .gpsfix _ f => Sys2Proof.Machine.execGpsfix f s
  | .utcconst _ f => Sys2Proof.Machine.execUtcconst f s
  | .utctime _ f => Sys2Proof.Machine.execUtctime f s
  | .chanstat _ f => Sys2Proof.Machine.execChanstat f s
  | .unknown _ ident => Sys2Proof.Machine.execUnknown ident s

end Sys2Proof.Machine
end

