-- ==== Sys2Proof/Machine/Fetch.lean ====
section
/-! DEFINITION. Taking the next input (`40_framing.md` R65 lines 1 and 2), and placing an instruction of the opcode table
where the next step takes it. -/

namespace Sys2Proof.Machine

/-- What the next step has to do. -/
inductive Fetched where
  /-- The step is over: this is its result. -/
  | done (s : State)
  /-- This instruction runs on this state. -/
  | run (i : Instr) (s : State)
deriving DecidableEq, Repr

/-- The next input is taken from the queue, and the event list starts empty. With `fatal = 1` the input has no effect
(`40_framing.md` R65 line 1); `SourceFail` is the fatal fault (line 2, `60_exceptions.md` R120); a byte is decoded. With
no input waiting nothing happens (log entry 2). -/
def fetch (s : State) : Fetched :=
  match s.inputs with
  | [] => .done s.clearEvents
  | .byte b now :: rest =>
    if s.fatal then .done (s.clearEvents.dropInput rest)
    else .run (decodeByte b) (s.clearEvents.takeByte rest now)
  | .sourceFail :: rest =>
    if s.fatal then .done (s.clearEvents.dropInput rest)
    else .done (raise .sourceUnavailable (s.clearEvents.dropInput rest))

/-- A wire byte as the next input. -/
def placeByte (s : State) (b : Byte) : State :=
  { s with fatal := false, inputs := .byte b s.now :: s.inputs }

/-- A frame collected in the buffer as the framing machine collects it, its END as the next input. -/
def placeFrame (s : State) (bytes : List Byte) : State :=
  { placeByte s endMarker with
    st := .inFrame, esc := false, buf := bytes, sum := byteSum bytes,
    exp := match memReadBE bytes 1 with
      | some ident => expectedFor s.config ident
      | none => .undetermined }

/-- An opcode-table word as the next instruction: a wire byte, or a header with zero operands (log entries 12, 13). -/
def placeTableWord (s : State) (nbits w : Nat) : State :=
  if nbits = 8 then placeByte s (BitVec.ofNat 8 w)
  else if nbits = 24 then placeFrame s (tableFrame s.config w)
  else s

end Sys2Proof.Machine
end

