-- ==== Sys2Proof/Machine/Step.lean ====
section
/-! DEFINITION. One step of the block: one input (`00_scope.md` R3). -/

namespace Sys2Proof.Machine

/-- One step (`40_framing.md` R65). A configuration that is not well-formed is refused (`00_scope.md` R5). -/
def step (s : State) : Host.Outcome State Fault Refusal :=
  if s.config.wf then
    match fetch s with
    | .done s' => .next s'
    | .run i s' => exec i s'
  else .refused .illFormedConfig

/-- The state with an opcode-table word placed where the next step takes its instruction (log entry 12). -/
def State.withFetchWord (s : State) (nbits w : Nat) : State := placeTableWord s nbits w

end Sys2Proof.Machine
end

