-- ==== Sys2Proof/Machine/Interpretation.lean ====
section
/-! DEFINITION. What a reader of Navigation State is entitled to assume: the exact rational value of each raw register
(`10_state.md` R25). No rule of the step computes them. -/

namespace Sys2Proof.Machine

/-- `signed_N(v)` (`00_scope.md` R6). -/
def signedValue {n : Nat} (v : BitVec n) : Int := v.toInt

/-- Degrees of a latitude or longitude: the signed value over the literal 11930464.7111; positive is north, and east
(`10_state.md` R25, log entry 19). -/
def degreesOf (raw : Word) : Rat := (signedValue raw : Rat) / (119304647111 / 10000)

/-- Altitude in metres above mean sea level, scale 1 (`10_state.md` R25). -/
def altitudeMetres (raw : Half) : Rat := raw.toNat

/-- Heading, a number in [0, 2); its unit is as HIPPO writes it (`10_state.md` R25). -/
def headingOf (raw : Half) : Rat := (raw.toNat : Rat) / 32768

/-- Speed in centimetres per second (`10_state.md` R25). -/
def speedCmPerSecond (raw : Half) : Rat := raw.toNat

/-- A dilution of precision, 8.8 fixed point; 255 means not computed (`10_state.md` R25). -/
def dopOf (raw : Half) : Rat := (raw.toNat : Rat) / 256

/-- Milliseconds since the start of the GPS week (`10_state.md` R25). -/
def timeOfWeekMs (raw : Word) : Nat := raw.toNat

/-- The readings of `Position.age` (`10_state.md` R25). -/
inductive AgeReading where
  | seconds (n : Nat)
  | saturated
  | unavailable
deriving DecidableEq, Repr

/-- Seconds since the fix; 254 saturated, 255 unavailable (`10_state.md` R25). -/
def ageReading (raw : Byte) : AgeReading :=
  if raw = 255 then .unavailable else if raw = 254 then .saturated else .seconds raw.toNat

end Sys2Proof.Machine
end

