-- ==== Sys2Proof/Machine/Codes.lean ====
section
/-! DEFINITION. The numeric codes of the outputs (`30_encoding.md` R62) and the meanings of the two channel statuses
(`10_state.md` R18). No rule of the step reads them. -/

namespace Sys2Proof.Machine

/-- The code of a cause, 1 to 7; 0 means no fault (`30_encoding.md` R62). -/
def Cause.code : Cause → BitVec 3
  | .framingFault => 1
  | .checksumMismatch => 2
  | .unknownMessageId => 3
  | .channelIndexOutOfRange => 4
  | .sourceUnavailable => 5
  | .shortFrame => 6
  | .bufferOverflow => 7

/-- Whether a cause is fatal (`60_exceptions.md` R115). -/
def Cause.isFatal : Cause → Bool
  | .sourceUnavailable => true
  | .framingFault => false
  | .checksumMismatch => false
  | .unknownMessageId => false
  | .channelIndexOutOfRange => false
  | .shortFrame => false
  | .bufferOverflow => false

/-- The code of an encoder, 0 to 5 (`30_encoding.md` R62). -/
def EncReq.code : EncReq → Nat
  | .gga => 0
  | .rmc => 1
  | .gsv _ _ _ => 2
  | .gsa => 3
  | .vtg => 4
  | .zda => 5

/-- The code of a message type, in ascending identifier order (`30_encoding.md` R62). -/
def MsgType.code : MsgType → BitVec 3
  | .fastfix => 0
  | .gpsfix => 1
  | .utcconst => 2
  | .utctime => 3
  | .chanstat => 4

/-- The almanac statuses (`10_state.md` R18); the value 3 has no name. -/
inductive AlmanacStatus where
  | none
  | old
  | current
  | unnamed
deriving DecidableEq, Repr

/-- `alm`: 0 none, 1 old, 2 current, 3 not named (`10_state.md` R18). -/
def almanacStatus (v : BitVec 2) : AlmanacStatus :=
  if v = 0 then .none else if v = 1 then .old else if v = 2 then .current else .unnamed

/-- The ephemeris statuses (`10_state.md` R18). -/
inductive EphemerisStatus where
  | none
  | old
  | decoded
  | verified
deriving DecidableEq, Repr

/-- `eph`: 0 none, 1 old, 2 decoded, 3 verified (`10_state.md` R18). -/
def ephemerisStatus (v : BitVec 2) : EphemerisStatus :=
  if v = 0 then .none else if v = 1 then .old else if v = 2 then .decoded else .verified

end Sys2Proof.Machine
end

