-- ==== Sys2Proof/Machine/Ports.lean ====
section
/-! DEFINITION. The ports of the sketch in `70_reset_and_hazards.md` R143: the inputs as an Input, the outputs as a view of
the event list of the last step and of `Channel`. No rule depends on them (log entry 18). -/

namespace Sys2Proof.Machine

/-- One of the two fault outputs: `fault_valid`, `fault_cause`, `fault_info` (`70_reset_and_hazards.md` R143). -/
structure FaultPort where
  valid : Bool
  cause : BitVec 3
  info : BitVec 16
deriving DecidableEq, Repr

/-- The data inputs of one cycle, `in_valid`, `in_fail`, `in_byte`, `now` (`70_reset_and_hazards.md` R143); `rst` is the
initial state (log entry 17). -/
structure InPorts where
  valid : Bool
  fail : Bool
  byte : Byte
  now : Nat
deriving DecidableEq, Repr

/-- The input a cycle presents; `in_valid = 0` is "no bytes currently available" (`70_reset_and_hazards.md` R143). -/
def InPorts.toInput (p : InPorts) : Option Input :=
  if p.valid then some (if p.fail then .sourceFail else .byte p.byte p.now) else none

/-- The outputs of one step (`70_reset_and_hazards.md` R143), but for Navigation State, which is read in the state. -/
structure Ports where
  frameValid : Bool
  frameOk : Bool
  frameScanned : Bool
  frameLen : Nat
  fault0 : FaultPort
  fault1 : FaultPort
  dispValid : Bool
  dispMsg : BitVec 3
  dispDue : Bool
  reqMask : BitVec 6
  gsvN : BitVec 2
  gsvVis : BitVec 12
deriving DecidableEq, Repr

/-- `info` of a report on its wire: the identifier, the raw index byte or `len` (`70_reset_and_hazards.md` R143). Two values
are the model's (DESIGN CHOICE): `SourceUnavailable`, which records no info, drives 0 (log entry 25); a `len` above 65535 is
shown modulo 2^16 (log entry 26). -/
def Report.info : Report → BitVec 16
  | .framingFault ident _ => ident
  | .checksumMismatch ident => ident
  | .channelIndexOutOfRange raw => raw.setWidth 16
  | .sourceUnavailable => 0
  | .shortFrame len => BitVec.ofNat 16 len
  | .bufferOverflow len => BitVec.ofNat 16 len

/-- No fault on this output: cause code 0 (`30_encoding.md` R62). -/
def FaultPort.idle : FaultPort := { valid := false, cause := 0, info := 0 }

/-- The fault output of an `EvFault` or `EvDrop`. -/
def faultPortOf : Event → Option FaultPort
  | .fault r => some { valid := true, cause := r.cause.code, info := r.info }
  | .drop c ident => some { valid := true, cause := c.code, info := ident }
  | .frame _ _ _ => none
  | .dispatch _ _ _ => none

/-- The bit of a request in `req_mask`, one for each encoder code: bit `c` for code `c` (log entry 18, DESIGN CHOICE). -/
def reqBit (r : EncReq) : BitVec 6 := 1#6 <<< r.code

/-- The bit of a slot in `gsv_vis`: bit `k` for slot `k` (log entry 18, DESIGN CHOICE). -/
def slotBit (k : SlotIndex) : BitVec 12 := 1#12 <<< k.val

/-- `gsv_vis`, the visible-slot bit vector: the slots of `VISIBLE(Channel)` (`70_reset_and_hazards.md` R143,
`41_dispatch.md` R92), whether or not reports are due (log entry 18, DESIGN CHOICE). -/
def visibleVector (ch : Channels) : BitVec 12 := (visibleSlots ch).foldl (fun m k => m ||| slotBit k) 0

/-- The outputs with no event on them and no visible slot. -/
def Ports.idle : Ports :=
  { frameValid := false, frameOk := false, frameScanned := false, frameLen := 0, fault0 := FaultPort.idle,
    fault1 := FaultPort.idle, dispValid := false, dispMsg := 0, dispDue := false, reqMask := 0, gsvN := 0, gsvVis := 0 }

/-- An event put on the outputs that show its kind. -/
def Ports.show (p : Ports) : Event → Ports
  | .frame bytes valid scanned =>
    { p with frameValid := true, frameOk := valid, frameScanned := scanned, frameLen := bytes.length }
  | .dispatch msg due reqs =>
    { p with
      dispValid := true, dispMsg := msg.code, dispDue := due,
      reqMask := reqs.foldl (fun m r => m ||| reqBit r) 0,
      gsvN := BitVec.ofNat 2 (reqs.filter fun r => r.code == 2).length }
  | .fault _ => p
  | .drop _ _ => p

/-- The output ports after a step. Of its at most two reports the first in event order stands on `fault0`, the second on
`fault1`, and `fault1` is idle where there is one only (log entry 18, DESIGN CHOICE). -/
def State.ports (s : State) : Ports :=
  let p := s.events.foldl Ports.show Ports.idle
  let faults := s.events.filterMap faultPortOf
  { p with
    fault0 := faults.getD 0 FaultPort.idle, fault1 := faults.getD 1 FaultPort.idle, gsvVis := visibleVector s.channel }

end Sys2Proof.Machine
end

