-- ==== Sys2Proof/Safety.lean ====
section
/-! DEFINITION. The terms claims use: the invariant of every reachable state (`10_state.md` R27), what counts as a safe
outcome, Navigation State as one value, and the shape of a step's event list. -/

namespace Sys2Proof.Machine

/-- The invariant: `10_state.md` R27 (a) to (g), with a well-formed configuration (`00_scope.md` R5), the accumulator's
meaning (`10_state.md` R14) and the register `exp` as LOOKUP wrote it (`40_framing.md` R75). -/
structure MachineInv (s : State) : Prop where
  config_wf : s.config.wf = true
  idle_clear : s.st = .idle → s.esc = false ∧ s.buf = [] ∧ s.exp = .undetermined
  within_capacity : Memory.wf s.config.bufMax s.buf = true
  undetermined_iff : s.exp = .undetermined ↔ s.st = .idle ∨ s.buf.length < 3
  known_range : ∀ L, s.exp = .known L → 3 ≤ s.buf.length ∧ s.buf.length ≤ L
  full_not_escaped : ∀ L, s.exp = .known L → s.buf.length = L → s.esc = false
  sync_stored : s.config.storeSync = true → s.st = .inFrame → s.buf.head? = some syncByte
  fatal_idle : s.fatal = true → s.st = .idle
  sum_eq : s.sum = byteSum s.buf
  exp_looked_up : ∀ i, 3 ≤ s.buf.length → memReadBE s.buf 1 = some i → s.exp = expectedFor s.config i

/-- The one `Idle` configuration of the framing registers (`10_state.md` R23). -/
def IdleClear (s : State) : Prop :=
  s.st = .idle ∧ s.esc = false ∧ s.buf = [] ∧ s.exp = .undetermined ∧ s.sum = 0

/-- What APPEND(d) makes of a state (`40_framing.md` R74, R75): an overflow on a full buffer; else the byte is stored, and
`exp` is looked up exactly when the third byte is. -/
def Appended (d : Byte) (s t : State) : Prop :=
  if s.buf.length = s.config.bufMax then
    t = { s with
      st := .idle, esc := false, buf := [], exp := .undetermined, sum := 0,
      events := s.events ++ [.fault (.bufferOverflow s.buf.length)] }
  else
    ∃ x, t = { s with buf := s.buf ++ [d], sum := s.sum + d, exp := x } ∧
      (s.buf.length + 1 ≠ 3 → x = s.exp) ∧
      (s.buf.length + 1 = 3 → ∃ i, memReadBE (s.buf ++ [d]) 1 = some i ∧
        (∀ L, s.config.lengthOf i = some L → x = .known L) ∧ (s.config.lengthOf i = none → x = .unknown))

/-- An outcome that is a next state. -/
def Completes (r : Result) : Prop := ∃ t, r = .next t

/-- Navigation State (`20_memory.md` R30, `10_state.md` R20): `Position`, `GpsTime`, `Channel`. -/
def State.nav (s : State) : Position × GpsTime × Channels := (s.position, s.gpsTime, s.channel)

/-- The event lists a step can have, in the order of `60_exceptions.md` R124: nothing; one framing or source fault;
or a frame, then the checksum report when its sum fails, then one drop, or one dispatch, or the index report and the
dispatch of a channel message. -/
inductive EventShape : List Event → Prop where
  | quiet : EventShape []
  | framing (i : Ident) (L : Nat) : EventShape [.fault (.framingFault i L)]
  | short (n : Nat) : EventShape [.fault (.shortFrame n)]
  | overflow (n : Nat) : EventShape [.fault (.bufferOverflow n)]
  | source : EventShape [.fault .sourceUnavailable]
  | completion (bytes : List Byte) (valid scanned : Bool) (i : Ident) (check tail : List Event)
      (hident : memReadBE bytes 1 = some i)
      (hcheck : check = if valid then [] else [.fault (.checksumMismatch i)])
      (htail : (∃ c, tail = [.drop c i]) ∨ (∃ m d r, tail = [.dispatch m d r]) ∨
        (∃ raw d r, tail = [.fault (.channelIndexOutOfRange raw), .dispatch .chanstat d r])) :
      EventShape (.frame bytes valid scanned :: (check ++ tail))

end Sys2Proof.Machine
end

