-- ==== Sys2Proof/Certificates/Slice0/Obligations.lean ====
section
/-! DEFINITION. The statements for the provers. Each docstring names the rule or section of spec/ it formalises. -/

open Sys2Proof Sys2Proof.Machine

/-! ## The step -/

/-- A step takes the next byte, decodes it, and runs the decoded instruction on the state with the input consumed, its
clock value visible and the event list empty (`40_framing.md` section 1; the input fields are log entries 1, 3, 4). -/
def Obligations.StepRunsDecodedByte : Prop :=
  ∀ (s : State) (b : Byte) (n : Nat) (rest : List Input),
    s.config.wf = true → s.fatal = false → s.inputs = .byte b n :: rest →
      (decodeByte b).wf = true ∧
        step s = exec (decodeByte b) { s with inputs := rest, now := n, events := [] }

/-- With no input waiting the state persists and nothing is emitted (the model's choice, log entry 2). -/
def Obligations.NoInputNoChange : Prop :=
  ∀ s : State, s.config.wf = true → s.inputs = [] → step s = .next { s with events := [] }

/-- A configuration that is not well-formed is refused, whatever the input (`00_scope.md` section 4, log entry 5). -/
def Obligations.IllFormedConfigRefused : Prop :=
  ∀ s : State, step s = .refused .illFormedConfig ↔ s.config.wf = false

/-- What a well-formed configuration promises of the buffer and the length table (`00_scope.md` section 4). -/
def Obligations.WellFormedConfigBounds : Prop :=
  ∀ c : Config, c.wf = true →
    4 ≤ c.bufMax ∧ ∀ (i : Ident) (L : Nat), c.lengthOf i = some L → 4 ≤ L ∧ L ≤ c.bufMax

/-- No read leaves the frame: every frame of the length the table gives its identifier decodes (`20_memory.md`
section 4). -/
def Obligations.FramesOfTableLengthDecode : Prop :=
  ∀ (c : Config) (bytes : List Byte) (i : Ident),
    c.wf = true → memReadBE bytes 1 = some i → c.lengthOf i = some bytes.length →
      ∃ m, decodeFrame c.layout bytes = .ok m

/-! ## Reset and invariants -/

/-- Every register after reset has the value of the table in `10_state.md` R22. -/
def Obligations.ResetRegisterValues : Prop :=
  ∀ c : Config,
    let s := State.resetWith c
    s.config = c ∧ s.st = .idle ∧ s.esc = false ∧ s.buf = [] ∧ s.buf.length = 0 ∧ s.exp = .undetermined ∧ s.sum = 0 ∧
    s.fatal = false ∧
    s.position.posValid = false ∧ s.position.altValid = false ∧ s.position.hdgValid = false ∧
    s.position.spdValid = false ∧
    s.position.hdopRaw = 0xFF00 ∧ s.position.vdopRaw = 0xFF00 ∧ s.position.pdopRaw = 0xFF00 ∧
    (∀ k : SlotIndex, s.channel[k] = none) ∧ s.lastGsv = none ∧
    s.position.age = c.init.age ∧ s.position.tow = c.init.tow ∧ s.position.latRaw = c.init.latRaw ∧
    s.position.lonRaw = c.init.lonRaw ∧ s.position.alt = c.init.alt ∧ s.position.hdgRaw = c.init.hdgRaw ∧
    s.position.spd = c.init.spd ∧ s.position.visCount = c.init.visCount ∧ s.position.trkCount = c.init.trkCount ∧
    s.position.fixSrc = c.init.fixSrc ∧ s.position.altHold = c.init.altHold ∧
    s.gpsTime.year = c.init.year ∧ s.gpsTime.month = c.init.month ∧ s.gpsTime.day = c.init.day ∧
    s.gpsTime.hour = c.init.hour ∧ s.gpsTime.minute = c.init.minute ∧ s.gpsTime.second = c.init.second ∧
    s.gpsTime.utcOff = c.init.utcOff ∧ s.gpsTime.week = c.init.week ∧ s.gpsTime.tow = c.init.gpsTow

/-- The invariant of `10_state.md` section 4 holds after reset in every well-formed configuration, the default among
them. -/
def Obligations.InvHoldsAfterReset : Prop :=
  defaultConfig.wf = true ∧ ∀ c : Config, c.wf = true → MachineInv (State.resetWith c)

/-- Every step keeps the invariant of `10_state.md` section 4 (with the accumulator of `sum` and the looked-up `exp`). -/
def Obligations.StepKeepsInv : Prop :=
  ∀ s t : State, MachineInv s → step s = .next t → MachineInv t

/-- With a well-formed configuration the step is total: from every state of the invariant it answers a next state, never
a fault and never a refusal (`93_implementation_defined.md` section 1, `41_dispatch.md` section 3). -/
def Obligations.StepTotalUnderInv : Prop :=
  ∀ s : State, MachineInv s → ∃ t, step s = .next t

/-- No rule writes the configuration (`20_memory.md` section 4, `00_scope.md` section 4). -/
def Obligations.ConfigNeverWritten : Prop :=
  ∀ s t : State, step s = .next t → t.config = s.config

/-! ## The fatal fault -/

/-- `fatal` (`10_state.md` section 1): 0 at reset, set by `SourceFail` and by nothing else, cleared by no step; while it is 1
every input leaves the registers unchanged and produces no event. That reset is no step is log entry 17, that the ignored
input leaves the queue is log entry 21. -/
def Obligations.FatalBitIsSticky : Prop :=
  (∀ c : Config, (State.resetWith c).fatal = false) ∧
  (∀ s t : State, step s = .next t →
    (t.fatal = true ↔ s.fatal = true ∨ ∃ rest, s.inputs = .sourceFail :: rest)) ∧
  (∀ (s : State) (i : Input) (rest : List Input),
    s.config.wf = true → s.fatal = true → s.inputs = i :: rest →
      step s = .next { s with inputs := rest, events := [] })

/-- `SourceUnavailable` (`60_exceptions.md` section 1): the event, `TO_IDLE`, `fatal`; Navigation State and `last_gsv`
kept; every later input, a second failure too, ignored without event. That the ignored input leaves the queue is log
entry 21. -/
def Obligations.SourceFailureIsFatal : Prop :=
  ∀ (s : State) (rest : List Input),
    s.config.wf = true → s.fatal = false → s.inputs = .sourceFail :: rest →
      ∃ t, step s = .next t ∧
        t = { s with
          st := .idle, esc := false, buf := [], exp := .undetermined, sum := 0, fatal := true, inputs := rest,
          events := [.fault .sourceUnavailable] } ∧
        ∀ (i : Input) (rest' : List Input), rest = i :: rest' →
          step t = .next { t with inputs := rest', events := [] }

/-! ## The framing machine -/

/-- The four byte classes of `30_encoding.md` R45, selected by the full value; `DATA` is every other value. -/
def Obligations.ByteClassesByFullValue : Prop :=
  ∀ b : Byte,
    (decodeByte b = .sync ↔ b = 0x81) ∧ (decodeByte b = .esc ↔ b = 0x80) ∧ (decodeByte b = .endByte ↔ b = 0x82) ∧
    (decodeByte b = .data b ↔ b ≠ 0x80 ∧ b ≠ 0x81 ∧ b ≠ 0x82) ∧ encode (decodeByte b) = [b]

/-- Start of frame (`40_framing.md` R66): with `STORE_SYNC = 1` the sync byte is stored. -/
def Obligations.SyncStartsFrame : Prop :=
  ∀ s : State, s.config.wf = true → s.st = .idle →
    exec .sync s = .next { s with
      st := .inFrame, esc := false, exp := .undetermined,
      buf := if s.config.storeSync then [0x81] else [],
      sum := if s.config.storeSync then 0x81 else 0 }

/-- Any other byte in `Idle` is ignored (`40_framing.md` R67). -/
def Obligations.IdleIgnoresOtherBytes : Prop :=
  ∀ (s : State) (b : Byte), s.st = .idle → b ≠ 0x81 → exec (decodeByte b) s = .next s

/-- A non-END byte on a buffer that holds the expected length (`40_framing.md` R68, `60_exceptions.md` R116). -/
def Obligations.FullBufferFramingFault : Prop :=
  ∀ (s : State) (b : Byte) (L : Nat) (i : Ident),
    s.st = .inFrame → s.exp = .known L → s.buf.length = L → b ≠ 0x82 → memReadBE s.buf 1 = some i →
      exec (decodeByte b) s = .next { s with
        st := .idle, esc := false, buf := [], exp := .undetermined, sum := 0,
        events := s.events ++ [.fault (.framingFault i L)] }

/-- An escaped byte is data whatever its class (`40_framing.md` R69). -/
def Obligations.EscapedByteAppended : Prop :=
  ∀ (s : State) (b : Byte),
    s.st = .inFrame → s.esc = true → ¬(s.exp = .known s.buf.length ∧ b ≠ 0x82) →
      ∃ t, exec (decodeByte b) s = .next t ∧ Appended (b ||| 0x80) { s with esc := false } t

/-- `ESC` sets the flag and is not stored (`40_framing.md` R70). -/
def Obligations.EscSetsFlag : Prop :=
  ∀ s : State, s.st = .inFrame → s.esc = false → s.exp ≠ .known s.buf.length →
    exec .esc s = .next { s with esc := true }

/-- `END` at the right length (`40_framing.md` R71): `TO_IDLE`, the frame event with the checksum of the buffered bytes,
then DISPATCH in the same step. -/
def Obligations.EndCompletesFrame : Prop :=
  ∀ s : State,
    MachineInv s → s.st = .inFrame → s.esc = false → 3 ≤ s.buf.length →
    (s.exp = .unknown ∨ s.exp = .known s.buf.length) →
      let valid := decide ((s.buf.map BitVec.toNat).sum % 256 = 0)
      let scanned := decide (s.exp = .unknown)
      ∃ t, exec .endByte s = .next t ∧
        dispatch { bytes := s.buf, valid := valid, scanned := scanned } { s with
          st := .idle, esc := false, buf := [], exp := .undetermined, sum := 0,
          events := s.events ++ [.frame s.buf valid scanned] } = .next t ∧
        t.st = .idle ∧ t.esc = false ∧ t.buf = [] ∧ t.exp = .undetermined ∧ t.sum = 0 ∧ t.fatal = s.fatal ∧
        ∃ more, t.events = s.events ++ .frame s.buf valid scanned :: more

/-- `END` at a wrong length (`40_framing.md` R72, `60_exceptions.md` R121). -/
def Obligations.EndShortFrame : Prop :=
  ∀ s : State,
    s.st = .inFrame → s.esc = false →
    (s.buf.length < 3 ∧ s.exp = .undetermined ∨ ∃ L, s.exp = .known L ∧ s.buf.length < L) →
      exec .endByte s = .next { s with
        st := .idle, esc := false, buf := [], exp := .undetermined, sum := 0,
        events := s.events ++ [.fault (.shortFrame s.buf.length)] }

/-- `DATA`, and an unescaped 0x81, are appended (`40_framing.md` R73). -/
def Obligations.DataByteAppended : Prop :=
  ∀ (s : State) (b : Byte),
    s.st = .inFrame → s.esc = false → s.exp ≠ .known s.buf.length → b ≠ 0x80 → b ≠ 0x82 →
      ∃ t, exec (decodeByte b) s = .next t ∧ Appended b s t

/-- APPEND with its overflow and with LOOKUP at the third byte (`40_framing.md` R74, R75). -/
def Obligations.AppendStoresOverflowsOrLooksUp : Prop :=
  ∀ (s : State) (d : Byte), ∃ t, append d s = .next t ∧ Appended d s t

/-! ## The decode routines -/

/-- `FASTFIX` (`41_dispatch.md` R86): exactly these registers, and RMC then VTG. -/
def Obligations.FastfixWritesItsFields : Prop :=
  ∀ (s : State) (mark : Byte) (f : FastfixFields),
    exec (.fastfix mark f) s = .next { s with
      position := { s.position with
        posValid := f.status.pos, altValid := f.status.alt, hdgValid := f.status.hdg, spdValid := f.status.spd,
        age := f.age, tow := f.tow, latRaw := f.lat, lonRaw := f.lon, alt := f.alt }
      events := s.events ++ [.dispatch .fastfix true [.rmc, .vtg]] }

/-- `UTCCONST` (`41_dispatch.md` R87): exactly these registers, and ZDA then GSA. -/
def Obligations.UtcconstWritesItsFields : Prop :=
  ∀ (s : State) (mark : Byte) (f : UtcconstFields),
    exec (.utcconst mark f) s = .next { s with
      gpsTime := { s.gpsTime with
        year := f.cal.year, month := f.cal.month, day := f.cal.day, hour := f.cal.hour, minute := f.cal.minute,
        second := f.cal.second, utcOff := f.cal.offset }
      position := { s.position with pdopRaw := f.pdop, hdopRaw := f.hdop, vdopRaw := f.vdop, visCount := f.vis }
      events := s.events ++ [.dispatch .utcconst true [.zda, .gsa]] }

/-- `UTCTIME` (`41_dispatch.md` R88): all of `GpsTime`, `Position.tow`, and ZDA. -/
def Obligations.UtctimeWritesItsFields : Prop :=
  ∀ (s : State) (mark : Byte) (f : UtctimeFields),
    exec (.utctime mark f) s = .next { s with
      gpsTime :=
        { year := f.cal.year, month := f.cal.month, day := f.cal.day, hour := f.cal.hour, minute := f.cal.minute,
          second := f.cal.second, utcOff := f.cal.offset, week := f.week, tow := f.tow }
      position := { s.position with tow := f.tow }
      events := s.events ++ [.dispatch .utctime true [.zda]] }

/-- `GPSFIX` (`41_dispatch.md` R89): exactly these registers, and GSA then GGA. -/
def Obligations.GpsfixWritesItsFields : Prop :=
  ∀ (s : State) (mark : Byte) (f : GpsfixFields),
    exec (.gpsfix mark f) s = .next { s with
      position := { s.position with
        fixSrc := f.fixSrc, altHold := f.altHold,
        posValid := f.status.pos, altValid := f.status.alt, hdgValid := f.status.hdg, spdValid := f.status.spd,
        latRaw := f.lat, lonRaw := f.lon, alt := f.alt, hdgRaw := f.hdg, spd := f.spd }
      events := s.events ++ [.dispatch .gpsfix true [.gsa, .gga]] }

/-- `CHANSTAT` (`41_dispatch.md` R90, R94): one slot replaced whole, the tracked count of the slots as written, the
throttle on the visible list of the slots as written; an index above 11 goes to slot 11 and is reported first. -/
def Obligations.ChanstatWritesOneSlot : Prop :=
  ∀ (s : State) (mark : Byte) (f : ChanstatFields),
    ∃ t : State, exec (.chanstat mark f) s = .next t ∧
      let i : Nat := if f.index.toNat ≤ 11 then f.index.toNat else 11
      let vis := visibleSlots t.channel
      let n := (vis.length + 3) / 4
      let due : Bool := match s.lastGsv with
        | none => true
        | some l => decide (l ≤ s.now ∧ s.config.throttleTicks ≤ s.now - l)
      let reqs : List EncReq :=
        if due then (List.range n).map fun j => .gsv (j + 1) n ((vis.drop (4 * j)).take 4) else []
      (∀ k : SlotIndex, t.channel[k] = if k.val = i then
        some { prn := f.prn, visible := f.visible, hasTracked := f.hasTracked, tracking := f.tracking,
               meetsMask := f.meetsMask, snr := f.snr, az := f.az, el := f.el, alm := f.alm, eph := f.eph }
        else s.channel[k]) ∧
      t = { s with
        channel := t.channel
        position := { s.position with trkCount := BitVec.ofNat 4 (trackedCount t.channel) }
        lastGsv := if due then some s.now else s.lastGsv
        events := s.events ++
          ((if 11 < f.index.toNat then [.fault (.channelIndexOutOfRange f.index)] else []) ++
            [.dispatch .chanstat due reqs]) }

/-- `UNKNOWN` (`41_dispatch.md` R95): nothing but the drop. -/
def Obligations.UnknownIdentifierDropped : Prop :=
  ∀ (s : State) (mark : Byte) (i : Ident),
    exec (.unknown mark i) s = .next { s with events := s.events ++ [.drop .unknownMessageId i] }

/-- The clamp (`41_dispatch.md` R91, `20_memory.md` R42), for every index byte. -/
def Obligations.ChannelIndexClamped : Prop :=
  ∀ (raw : Byte) (s : State),
    (11 < raw.toNat → clampSlot raw = 11 ∧
      clampReport raw s = { s with events := s.events ++ [.fault (.channelIndexOutOfRange raw)] }) ∧
    (raw.toNat ≤ 11 → (clampSlot raw).val = raw.toNat ∧ clampReport raw s = s)

/-- The visible list (`41_dispatch.md` R92): exactly the populated slots with `visible = 1`, strictly ascending, at most
twelve. -/
def Obligations.VisibleSlotsAscending : Prop :=
  ∀ ch : Channels,
    (∀ k : SlotIndex, k ∈ visibleSlots ch ↔ ∃ c, ch[k] = some c ∧ c.visible = true) ∧
    (visibleSlots ch).Pairwise (· < ·) ∧ (visibleSlots ch).length ≤ 12

/-- The tracked count (`41_dispatch.md` R93): the number of populated slots with `tracking = 1`, which fits 4 bits. -/
def Obligations.TrackedCountCountsTracking : Prop :=
  ∀ ch : Channels,
    trackedCount ch =
      ((List.range 12).filter fun k => (ch.toList.getD k none).elim false ChannelRec.tracking).length ∧
    trackedCount ch ≤ 12 ∧ (BitVec.ofNat 4 (trackedCount ch)).toNat = trackedCount ch

/-- The throttle's decision (`41_dispatch.md` section 2): due on the first report, at exactly the period, never when the
clock went backwards; and a due report with nothing visible makes no request. -/
def Obligations.ThrottleDecision : Prop :=
  (∀ ticks now : Nat, throttleDue none ticks now = true) ∧
  (∀ t ticks now : Nat, throttleDue (some t) ticks now = true ↔ t ≤ now ∧ t + ticks ≤ now) ∧
  (∀ t ticks now : Nat, now < t → throttleDue (some t) ticks now = false) ∧
  (∀ (s : State) (due : Bool), throttleWrite due s = { s with lastGsv := if due then some s.now else s.lastGsv }) ∧
  gsvRequests [] = []

/-- The grouping of satellite requests (`42_encoder_requests.md` R107): `ceil(N / 4)` of them in ascending order, each
but the last with exactly 4 slots, the last with `N - 4(n-1)`, 1 to 4, and together the visible list in order. -/
def Obligations.GsvRequestsGroupByFour : Prop :=
  ∀ vis : List SlotIndex,
    let n := (vis.length + 3) / 4
    (gsvRequests vis).length = n ∧
    (∀ k : Nat, k < n → ∃ slots, (gsvRequests vis)[k]? = some (.gsv (k + 1) n slots) ∧
      (k + 1 < n → slots.length = 4) ∧
      (k + 1 = n → slots.length = vis.length - 4 * (n - 1) ∧ 1 ≤ slots.length ∧ slots.length ≤ 4)) ∧
    (gsvRequests vis).flatMap (fun r => match r with | .gsv _ _ slots => slots | _ => []) = vis

/-- DISPATCH (`41_dispatch.md` R85): the checksum report, the scanned drop, the strict drop, else the routine of the
decoded frame, which the identifier selects. -/
def Obligations.DispatchGates : Prop :=
  ∀ (s : State) (f : Frame) (i : Ident), memReadBE f.bytes 1 = some i →
    let s1 : State := { s with
      events := s.events ++ if f.valid then [] else [.fault (.checksumMismatch i)] }
    (f.scanned = true →
      dispatch f s = .next { s1 with events := s1.events ++ [.drop .unknownMessageId i] }) ∧
    (f.scanned = false → f.valid = false → s.config.dispatchInvalid = false →
      dispatch f s = .next { s1 with events := s1.events ++ [.drop .checksumMismatch i] }) ∧
    (f.scanned = false → (f.valid = true ∨ s.config.dispatchInvalid = true) →
      s.config.wf = true → s.config.lengthOf i = some f.bytes.length →
      ∃ m, decodeFrame s.config.layout f.bytes = .ok m ∧ dispatch f s = exec m.toInstr s1 ∧
        (i = 0x3002 → ∃ mark x, m = .fastfix mark x) ∧ (i = 0x3201 → ∃ mark x, m = .utcconst mark x) ∧
        (i = 0x3203 → ∃ mark x, m = .utctime mark x) ∧ (i = 0x3101 → ∃ mark x, m = .gpsfix mark x) ∧
        (i = 0x3301 → ∃ mark x, m = .chanstat mark x) ∧ (i ∉ dispatchedIdents → ∃ mark, m = .unknown mark i))

/-- Decoding selects by the identifier alone (`30_encoding.md` section 3): bytes 1 and 2, big-endian, name the message; the
mark is byte 0; an identifier outside the five is `UNKNOWN`. -/
def Obligations.MessageSelectedByIdentifier : Prop :=
  ∀ (lay : Layout) (bytes : List Byte) (m : Message), decodeFrame lay bytes = .ok m →
    memReadBE bytes 1 = some m.ident ∧ bytes[0]? = some m.mark ∧
      ((∃ mark i, m = .unknown mark i) ↔ m.ident ∉ dispatchedIdents)

/-! ## Payload layouts, byte order, encoding -/

/-- Little-endian field reads (`20_memory.md` R33, `00_scope.md` R7) and the one big-endian read (R32), defined only inside
the bytes (R7, log entry 9). -/
def Obligations.FieldReadsLittleEndian : Prop :=
  (∀ (bytes : List Byte) (off n : Nat),
    memRead bytes off n =
      if off + n ≤ bytes.length then
        some (((List.range n).map fun k => (bytes.getD (off + k) 0).toNat * 2 ^ (8 * k)).sum)
      else none) ∧
  (∀ (bytes : List Byte) (off : Nat) (i : Ident),
    memReadBE bytes off = some i ↔
      ∃ hi lo, bytes[off]? = some hi ∧ bytes[off + 1]? = some lo ∧ i.toNat = hi.toNat * 256 + lo.toNat)

/-- The default layout of `FASTFIX` (`30_encoding.md` R54): every byte of the frame, the field it belongs to, and the
register the field goes to; and its default length. -/
def Obligations.FastfixFrameOperands : Prop :=
  defaultConfig.lengthOf 0x3002 = some 20 ∧
  ∀ mark st age t0 t1 t2 t3 a0 a1 a2 a3 o0 o1 o2 o3 h0 h1 sum : Byte,
    let f : FastfixFields :=
      { status := { pos := st.getLsbD 0, alt := st.getLsbD 1, hdg := st.getLsbD 2, spd := st.getLsbD 3 }
        age := age, tow := t3 ++ t2 ++ t1 ++ t0, lat := a3 ++ a2 ++ a1 ++ a0, lon := o3 ++ o2 ++ o1 ++ o0,
        alt := h1 ++ h0 }
    decodeFrame defaultLayout
      [mark, 0x30, 0x02, st, age, t0, t1, t2, t3, a0, a1, a2, a3, o0, o1, o2, o3, h0, h1, sum] =
        .ok (.fastfix mark f) ∧
    ∀ s : State, ∃ t, exec (.fastfix mark f) s = .next t ∧
      t.position.posValid = st.getLsbD 0 ∧ t.position.altValid = st.getLsbD 1 ∧
      t.position.hdgValid = st.getLsbD 2 ∧ t.position.spdValid = st.getLsbD 3 ∧
      t.position.age = age ∧ t.position.tow = t3 ++ t2 ++ t1 ++ t0 ∧ t.position.latRaw = a3 ++ a2 ++ a1 ++ a0 ∧
      t.position.lonRaw = o3 ++ o2 ++ o1 ++ o0 ∧ t.position.alt = h1 ++ h0

/-- The default layout of `UTCCONST` (`30_encoding.md` R55): every byte of the frame, the field it belongs to, and the
register the field goes to; and its default length. -/
def Obligations.UtcconstFrameOperands : Prop :=
  defaultConfig.lengthOf 0x3201 = some 18 ∧
  ∀ mark yr mo dy hr mi se off p0 p1 h0 h1 v0 v1 vis sum : Byte,
    let f : UtcconstFields :=
      { cal := { year := 0#8 ++ yr, month := mo, day := dy, hour := hr, minute := mi, second := se, offset := off }
        pdop := p1 ++ p0, hdop := h1 ++ h0, vdop := v1 ++ v0, vis := vis.extractLsb' 0 4 }
    decodeFrame defaultLayout [mark, 0x32, 0x01, yr, mo, dy, hr, mi, se, off, p0, p1, h0, h1, v0, v1, vis, sum] =
      .ok (.utcconst mark f) ∧
    ∀ s : State, ∃ t, exec (.utcconst mark f) s = .next t ∧
      t.gpsTime.year = 0#8 ++ yr ∧ t.gpsTime.month = mo ∧ t.gpsTime.day = dy ∧ t.gpsTime.hour = hr ∧
      t.gpsTime.minute = mi ∧ t.gpsTime.second = se ∧ t.gpsTime.utcOff = off ∧ t.position.pdopRaw = p1 ++ p0 ∧
      t.position.hdopRaw = h1 ++ h0 ∧ t.position.vdopRaw = v1 ++ v0 ∧ t.position.visCount = vis.extractLsb' 0 4

/-- The default layout of `UTCTIME` (`30_encoding.md` R56): every byte of the frame, the field it belongs to, and the
registers the field goes to; and its default length. -/
def Obligations.UtctimeFrameOperands : Prop :=
  defaultConfig.lengthOf 0x3203 = some 17 ∧
  ∀ mark t0 t1 t2 t3 w0 w1 yr mo dy hr mi se off sum : Byte,
    let f : UtctimeFields :=
      { tow := t3 ++ t2 ++ t1 ++ t0, week := w1 ++ w0
        cal := { year := 0#8 ++ yr, month := mo, day := dy, hour := hr, minute := mi, second := se, offset := off } }
    decodeFrame defaultLayout [mark, 0x32, 0x03, t0, t1, t2, t3, w0, w1, yr, mo, dy, hr, mi, se, off, sum] =
      .ok (.utctime mark f) ∧
    ∀ s : State, ∃ t, exec (.utctime mark f) s = .next t ∧
      t.gpsTime.tow = t3 ++ t2 ++ t1 ++ t0 ∧ t.position.tow = t3 ++ t2 ++ t1 ++ t0 ∧ t.gpsTime.week = w1 ++ w0 ∧
      t.gpsTime.year = 0#8 ++ yr ∧ t.gpsTime.month = mo ∧ t.gpsTime.day = dy ∧ t.gpsTime.hour = hr ∧
      t.gpsTime.minute = mi ∧ t.gpsTime.second = se ∧ t.gpsTime.utcOff = off

/-- The default layout of `GPSFIX` (`30_encoding.md` R57): every byte of the frame, the field it belongs to, and the
register the field goes to; and its default length. -/
def Obligations.GpsfixFrameOperands : Prop :=
  defaultConfig.lengthOf 0x3101 = some 20 ∧
  ∀ mark s1 s2 a0 a1 a2 a3 o0 o1 o2 o3 h0 h1 d0 d1 v0 v1 sum : Byte,
    let f : GpsfixFields :=
      { fixSrc := s1.extractLsb' 0 6, altHold := s1.extractLsb' 6 2
        status := { pos := s2.getLsbD 0, alt := s2.getLsbD 1, hdg := s2.getLsbD 2, spd := s2.getLsbD 3 }
        lat := a3 ++ a2 ++ a1 ++ a0, lon := o3 ++ o2 ++ o1 ++ o0, alt := h1 ++ h0, hdg := d1 ++ d0, spd := v1 ++ v0 }
    decodeFrame defaultLayout
      [mark, 0x31, 0x01, s1, s2, a0, a1, a2, a3, o0, o1, o2, o3, h0, h1, d0, d1, v0, v1, sum] =
        .ok (.gpsfix mark f) ∧
    ∀ s : State, ∃ t, exec (.gpsfix mark f) s = .next t ∧
      t.position.fixSrc = s1.extractLsb' 0 6 ∧ t.position.altHold = s1.extractLsb' 6 2 ∧
      t.position.posValid = s2.getLsbD 0 ∧ t.position.altValid = s2.getLsbD 1 ∧
      t.position.hdgValid = s2.getLsbD 2 ∧ t.position.spdValid = s2.getLsbD 3 ∧
      t.position.latRaw = a3 ++ a2 ++ a1 ++ a0 ∧ t.position.lonRaw = o3 ++ o2 ++ o1 ++ o0 ∧
      t.position.alt = h1 ++ h0 ∧ t.position.hdgRaw = d1 ++ d0 ∧ t.position.spd = v1 ++ v0

/-- The default layout of `CHANSTAT` (`30_encoding.md` R58): every byte of the frame, the field it belongs to, the slot
the clamped index selects and the field of its record; and its default length. -/
def Obligations.ChanstatFrameOperands : Prop :=
  defaultConfig.lengthOf 0x3301 = some 11 ∧
  ∀ mark ix prn fl snr az el ae sum : Byte,
    let f : ChanstatFields :=
      { index := ix, prn := prn, visible := fl.getLsbD 0, hasTracked := fl.getLsbD 1, tracking := fl.getLsbD 2,
        meetsMask := fl.getLsbD 3, snr := snr, az := 0#8 ++ az, el := el, alm := ae.extractLsb' 0 2,
        eph := ae.extractLsb' 2 2 }
    decodeFrame defaultLayout [mark, 0x33, 0x01, ix, prn, fl, snr, az, el, ae, sum] = .ok (.chanstat mark f) ∧
    ∀ s : State, ∃ t, exec (.chanstat mark f) s = .next t ∧
      ∀ k : SlotIndex, k.val = min ix.toNat 11 →
        t.channel[k] = some
          { prn := prn, visible := fl.getLsbD 0, hasTracked := fl.getLsbD 1, tracking := fl.getLsbD 2,
            meetsMask := fl.getLsbD 3, snr := snr, az := 0#8 ++ az, el := el, alm := ae.extractLsb' 0 2,
            eph := ae.extractLsb' 2 2 }

/-- Decoding the encoding of a well-formed instruction of either level gives the instruction back, with every operand at
every value its encoding admits (`30_encoding.md` sections 1, 3 and 4, default layout). -/
def Obligations.DecodeEncodeAgree : Prop :=
  ∀ i : Instr, i.wf = true →
    (∃ b, encode i = [b] ∧ decodeByte b = i) ∨
    (∃ m, decodeFrame defaultLayout (encode i) = .ok m ∧ m.toInstr = i)

/-- The sum byte makes every encoded frame valid (`30_encoding.md` section 2): the bytes add to 0 modulo 256. -/
def Obligations.EncodedFramesAreValid : Prop :=
  ∀ (mark : Byte) (i : Ident) (payload : List Byte),
    ((frameBytes mark i payload).map BitVec.toNat).sum % 256 = 0 ∧
    ((frameBytes mark i payload).getLastD 0).toNat =
      (256 - (((frameBytes mark i payload).dropLast.map BitVec.toNat).sum % 256)) % 256

/-- Stuffing round trips (`30_encoding.md` section 1): unstuffing undoes stuffing on every list, stuffing undoes
unstuffing exactly on the canonical lists. -/
def Obligations.StuffingRoundTrips : Prop :=
  (∀ p : List Byte, unstuff (stuff p) = p) ∧
  (∀ w : List Byte, stuff (unstuff w) = w ↔ canonical w = true)

/-- A few opcode-table words, one for each row, decode to their instruction (`30_encoding.md` sections 1 and 3). -/
def Obligations.TableWordsDecode : Prop :=
  decodeTableWord 8 0x81 = some .sync ∧ decodeTableWord 8 0x80 = some .esc ∧
  decodeTableWord 8 0x82 = some .endByte ∧ decodeTableWord 8 0x7F = some (.data 0x7F) ∧
  decodeTableWord 24 0x034007 = some (.unknown 0x03 0x4007) ∧
  (∃ f, decodeTableWord 24 0x033002 = some (.fastfix 0x03 f)) ∧
  (∃ f, decodeTableWord 24 0x033101 = some (.gpsfix 0x03 f)) ∧
  (∃ f, decodeTableWord 24 0x033201 = some (.utcconst 0x03 f)) ∧
  (∃ f, decodeTableWord 24 0x033203 = some (.utctime 0x03 f)) ∧
  (∃ f, decodeTableWord 24 0x033301 = some (.chanstat 0x03 f))

/-! ## Whole-machine properties -/

/-- The framing machine refines the frame: from `Idle`, the wire bytes of any list of 3 to BUF_MAX bytes whose length is
the one the table gives its identifier (or whose identifier is not in the table) end, one step a byte, in the dispatch of
exactly that frame (`40_framing.md` sections 2 to 4, `30_encoding.md` section 1). With `STORE_SYNC = 1` the first byte of
the frame is the sync marker itself. Every byte has a clock value of its own; the dispatch sees that of END. -/
def Obligations.WireFrameIsDelivered : Prop :=
  ∀ (s : State) (p : List Byte) (i : Ident) (ns : List Nat) (n : Nat) (rest : List Input),
    let body := if s.config.storeSync then p.drop 1 else p
    let wire := 0x81 :: stuff body
    let valid := decide ((p.map BitVec.toNat).sum % 256 = 0)
    let scanned := (s.config.lengthOf i).isNone
    s.config.wf = true → s.st = .idle → s.fatal = false →
    memReadBE p 1 = some i → p.length ≤ s.config.bufMax →
    (∀ L, s.config.lengthOf i = some L → p.length = L) →
    (s.config.storeSync = true → p.head? = some 0x81) →
    ns.length = wire.length → s.inputs = List.zipWith .byte wire ns ++ .byte 0x82 n :: rest →
      Host.Core.run Sys2Proof.core (wire.length + 1) s =
        dispatch { bytes := p, valid := valid, scanned := scanned } { s with
          st := .idle, esc := false, buf := [], exp := .undetermined, sum := 0, inputs := rest, now := n,
          events := [.frame p valid scanned] }

/-- A frame of known length ends within a bound (`40_framing.md` section 5): with `len` bytes buffered, after at most
`2 * (L - len) + 1` further wire bytes the machine has been back in its one `Idle` configuration. -/
def Obligations.KnownFrameEndsWithinBound : Prop :=
  ∀ (s : State) (L : Nat) (bs : List (Byte × Nat)),
    MachineInv s → s.fatal = false → s.exp = .known L → s.inputs = bs.map (fun p => .byte p.1 p.2) →
    2 * (L - s.buf.length) + 1 ≤ bs.length →
      ∃ k t, k ≤ 2 * (L - s.buf.length) + 1 ∧ Host.Core.run Sys2Proof.core k s = .next t ∧ IdleClear t

/-- Only the completion of a frame with a checked length changes Navigation State or `last_gsv`
(`40_framing.md` section 5, `10_state.md` section 4). -/
def Obligations.NavChangesOnlyAtCompletion : Prop :=
  ∀ s t : State, step s = .next t → (t.nav ≠ s.nav ∨ t.lastGsv ≠ s.lastGsv) →
    s.fatal = false ∧ s.st = .inFrame ∧ s.esc = false ∧ 3 ≤ s.buf.length ∧ s.exp = .known s.buf.length ∧
    ∃ n rest, s.inputs = .byte 0x82 n :: rest

/-- The event list of every step has one of the shapes of `60_exceptions.md` section 2: at most one frame, framing faults
exclusive, and after a frame the checksum report exactly when the sum fails, then one drop, or one dispatch that only an
index report may precede. -/
def Obligations.StepEventOrder : Prop :=
  ∀ s t : State, step s = .next t → EventShape t.events

/-- Every emitted frame has 3 to BUF_MAX bytes, its validity is its byte sum, and one of known length has the length the
table gives its identifier (`40_framing.md` section 5). -/
def Obligations.EmittedFrameLengths : Prop :=
  ∀ (s t : State) (bytes : List Byte) (valid scanned : Bool),
    MachineInv s → step s = .next t → .frame bytes valid scanned ∈ t.events →
      3 ≤ bytes.length ∧ bytes.length ≤ s.config.bufMax ∧
      (valid = true ↔ (bytes.map BitVec.toNat).sum % 256 = 0) ∧
      (scanned = false → ∃ i, memReadBE bytes 1 = some i ∧ s.config.lengthOf i = some bytes.length) ∧
      (scanned = true → ∃ i, memReadBE bytes 1 = some i ∧ s.config.lengthOf i = none)

/-- What a step does to `Channel` (`10_state.md` section 2, `41_dispatch.md` section 2): a step that dispatches a channel
message writes the record of the frame in the buffer into the slot of its clamped index and no other slot; any other step
writes none; and no populated slot becomes absent. -/
def Obligations.ChannelSlotsStayPopulated : Prop :=
  ∀ s t : State, step s = .next t →
    (∀ k : SlotIndex, s.channel[k].isSome = true → t.channel[k].isSome = true) ∧
    ((∃ due reqs, .dispatch .chanstat due reqs ∈ t.events) →
      ∃ mark f, decodeFrame s.config.layout s.buf = .ok (.chanstat mark f) ∧
        ∀ k : SlotIndex, t.channel[k] = if k = clampSlot f.index then some (channelRecOf f) else s.channel[k]) ∧
    ((∀ due reqs, Event.dispatch .chanstat due reqs ∉ t.events) → t.channel = s.channel)

/-- The clock value of a step matters only to the dispatch of a channel message (`00_scope.md` section 3,
`70_reset_and_hazards.md` section 3): two steps that differ in it alone end in states that differ in it alone. -/
def Obligations.ClockReadOnlyByChannelDispatch : Prop :=
  ∀ (s t : State) (b : Byte) (n1 n2 : Nat) (rest : List Input),
    step { s with inputs := .byte b n1 :: rest } = .next t →
    (∀ due reqs, Event.dispatch .chanstat due reqs ∉ t.events) →
      ∃ u, step { s with inputs := .byte b n2 :: rest } = .next u ∧ { u with now := 0 } = { t with now := 0 }

/-- The mark of a frame is examined by no rule of the dispatcher (`41_dispatch.md` section 1): two frames that differ in it
alone are dispatched alike. -/
def Obligations.MarkIsNotExamined : Prop :=
  ∀ (s : State) (m1 m2 : Byte) (rest : List Byte) (valid scanned : Bool) (i : Ident),
    s.config.wf = true → memReadBE (m1 :: rest) 1 = some i →
    (scanned = false → (s.config.lengthOf i).isSome = true) →
      dispatch { bytes := m1 :: rest, valid := valid, scanned := scanned } s =
        dispatch { bytes := m2 :: rest, valid := valid, scanned := scanned } s

/-- A message dispatched twice leaves Navigation State as one dispatch left it, whatever the clock of the second
(`41_dispatch.md` section 3). -/
def Obligations.RepeatedMessageIdempotent : Prop :=
  ∀ (m : Message) (s t u : State) (n : Nat),
    exec m.toInstr s = .next t → exec m.toInstr { t with now := n } = .next u → u.nav = t.nav

/-! ## Output codes and interpretation -/

/-- The output codes of `30_encoding.md` R62; code 0 stands for no fault. -/
def Obligations.OutputCodes : Prop :=
  FaultPort.idle.cause = 0 ∧
  Cause.code .framingFault = 1 ∧ Cause.code .checksumMismatch = 2 ∧ Cause.code .unknownMessageId = 3 ∧
  Cause.code .channelIndexOutOfRange = 4 ∧ Cause.code .sourceUnavailable = 5 ∧ Cause.code .shortFrame = 6 ∧
  Cause.code .bufferOverflow = 7 ∧
  EncReq.code .gga = 0 ∧ EncReq.code .rmc = 1 ∧ (∀ k n slots, EncReq.code (.gsv k n slots) = 2) ∧
  EncReq.code .gsa = 3 ∧ EncReq.code .vtg = 4 ∧ EncReq.code .zda = 5 ∧
  MsgType.code .fastfix = 0 ∧ MsgType.code .gpsfix = 1 ∧ MsgType.code .utcconst = 2 ∧ MsgType.code .utctime = 3 ∧
  MsgType.code .chanstat = 4

/-- The readings of the raw registers (`10_state.md` section 4), each as its quotient for every raw value: degrees by the
literal divisor 11930464.7111 (log entry 19), positive exactly for a positive two's complement number; altitude, speed and
time of week with scale 1; heading by 32768, in [0, 2); dilutions of precision by 256, the reset value reading 255; the
age with its two special values. -/
def Obligations.InterpretedRegisterRanges : Prop :=
  (∀ raw : Word, degreesOf raw = (raw.toInt : Rat) / (119304647111 / 10000) ∧
    (0 < degreesOf raw ↔ raw ≠ 0 ∧ raw.getLsbD 31 = false)) ∧
  (∀ raw : Half, altitudeMetres raw = (raw.toNat : Rat)) ∧
  (∀ raw : Half, headingOf raw = (raw.toNat : Rat) / 32768 ∧ 0 ≤ headingOf raw ∧ headingOf raw < 2) ∧
  (∀ raw : Half, speedCmPerSecond raw = (raw.toNat : Rat)) ∧
  (∀ raw : Half, dopOf raw = (raw.toNat : Rat) / 256) ∧ dopOf 0xFF00 = 255 ∧
  (∀ raw : Word, timeOfWeekMs raw = raw.toNat) ∧
  ageReading 254 = .saturated ∧ ageReading 255 = .unavailable ∧
  (∀ raw : Byte, raw.toNat < 254 → ageReading raw = .seconds raw.toNat)

/-! ## Fields of any layout -/

/-- How a field of any offset and width is assembled (`30_encoding.md` section 2, `20_memory.md` section 3): inside the
bytes a whole-byte field gives its little-endian number, zero-extended to the register, where the number fits (where it does
not, the value is free, log entry 24, and nothing is said of it); the byte of a bit field is the byte at the offset; and a
bit field of any place has the bits of the byte below bit 8 (above, they are free, log entry 27). -/
def Obligations.FieldsOfAnyWidthAssemble : Prop :=
  ∀ (f : FieldSpec) (bytes : List Byte) (w : Nat), f.off + f.width ≤ bytes.length →
    (∃ (v : Nat) (x : BitVec w), memRead bytes f.off f.width = some v ∧ v < 2 ^ (8 * f.width) ∧
      f.read bytes w = some x ∧ (v < 2 ^ w → x.toNat = v)) ∧
    (f.off < bytes.length → f.readByte bytes = bytes[f.off]?) ∧
    (∀ (v : Byte) (lo n k : Nat), k < n → lo + k < 8 → (bitsOf v lo n).getLsbD k = v.getLsbD (lo + k))

/-- The accepted configurations are those of `00_scope.md` section 4: bounds on the buffer and the lengths, and every field
of a dispatched identifier in the table inside `[3, L)`, whatever its width. The table is a list with one entry an
identifier (log entry 6). -/
def Obligations.ConfigWellFormedIff : Prop :=
  ∀ c : Config, c.wf = true ↔
    4 ≤ c.bufMax ∧ (c.lenTable.map Prod.fst).Nodup ∧
    (∀ i L, c.lengthOf i = some L → 4 ≤ L ∧ L ≤ c.bufMax) ∧
    (∀ i fields,
      (i, fields) ∈ [(identFastfix, c.layout.fastfix.fields), (identGpsfix, c.layout.gpsfix.fields),
        (identUtcconst, c.layout.utcconst.fields), (identUtctime, c.layout.utctime.fields),
        (identChanstat, c.layout.chanstat.fields)] →
      ∀ L, c.lengthOf i = some L → ∀ f ∈ fields, 3 ≤ f.off ∧ f.off + f.width ≤ L)

/-- The model's choice for `gsv_vis` of the port sketch (log entry 18, DESIGN CHOICE): the sketch names it the visible-slot
bit vector (`70_reset_and_hazards.md` section 4), and the model shows it after every step, a report due or not; bit `k` is 1
exactly when slot `k` is populated and visible. -/
def Obligations.VisiblePortShowsVisibleSlots : Prop :=
  ∀ (s : State) (k : SlotIndex), s.ports.gsvVis.getLsbD k.val = true ↔ ∃ c, s.channel[k] = some c ∧ c.visible = true
end

