-- ==== Sys2Proof/Laws/Decode.lean ====
section
/-! SUPPORT. The helpers of the decoder and encoder, once each: little-endian numbers as concatenations, flags as bits,
the identifier of a frame's header, and the checksum as a number. -/

namespace Sys2Proof

/-- One byte as a number. -/
theorem ofNat_leNat_one (a : Byte) : BitVec.ofNat 8 (leNat [a]) = a := by simp [leNat]

/-- One byte zero-extended to 16 bits. -/
theorem ofNat_leNat_one_wide (a : Byte) : BitVec.ofNat 16 (leNat [a]) = 0#8 ++ a := by
  apply BitVec.eq_of_toNat_eq
  simp only [leNat, BitVec.toNat_ofNat, BitVec.toNat_append]
  simp
  omega

/-- Two bytes, the second the more significant. -/
theorem ofNat_leNat_two (a b : Byte) : BitVec.ofNat 16 (leNat [a, b]) = b ++ a := by
  apply BitVec.eq_of_toNat_eq
  simp only [leNat, BitVec.toNat_ofNat, BitVec.toNat_append]
  rw [← Nat.shiftLeft_add_eq_or_of_lt (by omega)]
  simp only [Nat.shiftLeft_eq]
  omega

/-- Four bytes, the last the most significant. -/
theorem ofNat_leNat_four (a b c d : Byte) : BitVec.ofNat 32 (leNat [a, b, c, d]) = d ++ c ++ b ++ a := by
  apply BitVec.eq_of_toNat_eq
  simp only [leNat, BitVec.toNat_ofNat, BitVec.toNat_append]
  rw [← Nat.shiftLeft_add_eq_or_of_lt (by omega), ← Nat.shiftLeft_add_eq_or_of_lt (by omega),
    ← Nat.shiftLeft_add_eq_or_of_lt (by omega)]
  simp only [Nat.shiftLeft_eq]
  omega

/-- Reading back `n` little-endian bytes of a number that fits them gives the number. -/
theorem leNat_leBytes (n v : Nat) (h : v < 256 ^ n) : leNat (leBytes n v) = v := by
  induction n generalizing v with
  | zero => simp at h; simp [leBytes, leNat, h]
  | succ n ih =>
    have : v / 256 < 256 ^ n := by rw [Nat.div_lt_iff_lt_mul (by omega)]; simpa [pow_succ] using h
    simp [leBytes, leNat, ih _ this]
    omega

/-- `n` little-endian bytes make a number of `8 * n` bits. -/
theorem leNat_lt (l : List Byte) : leNat l < 256 ^ l.length := by
  induction l with
  | nil => simp [leNat]
  | cons b l ih => simp only [leNat, List.length_cons, pow_succ]; omega

/-! ## Fields -/

/-- A read answers exactly inside the bytes, and then with a number of the field's width. -/
theorem memRead_cases (bytes : List Byte) (off n : Nat) :
    (off + n ≤ bytes.length ∧ ∃ v, memRead bytes off n = some v ∧ v < 256 ^ n) ∨
    (bytes.length < off + n ∧ memRead bytes off n = none) := by
  unfold memRead
  split
  · next h =>
    refine .inl ⟨h, _, rfl, ?_⟩
    have := leNat_lt ((bytes.drop off).take n)
    rwa [List.length_take, List.length_drop, Nat.min_eq_left (by omega)] at this
  · next h => exact .inr ⟨by omega, rfl⟩

/-- A value that fits the register is stored as it is. -/
theorem FieldSpec.assemble_of_fits (f : FieldSpec) {w v : Nat} (h : v < 2 ^ w) :
    f.assemble w v = BitVec.ofNat w v := if_pos h

/-- A field no wider than its register is zero-extended into it: nothing of it is free. -/
theorem FieldSpec.read_of_narrow (f : FieldSpec) (bytes : List Byte) {w : Nat} (h : 8 * f.width ≤ w) :
    f.read bytes w = (memRead bytes f.off f.width).map (BitVec.ofNat w) := by
  unfold FieldSpec.read
  rcases memRead_cases bytes f.off f.width with ⟨_, v, hv, hlt⟩ | ⟨_, hv⟩
  · have h256 : (256 : Nat) ^ f.width = 2 ^ (8 * f.width) := by rw [pow_mul]; rfl
    have hv2 : v < 2 ^ w := lt_of_lt_of_le (h256 ▸ hlt) (Nat.pow_le_pow_right (by omega) h)
    rw [hv, Option.map_some, Option.map_some, f.assemble_of_fits hv2]
  · rw [hv, Option.map_none, Option.map_none]

/-- Inside the bytes every whole-byte field gives a value. -/
theorem FieldSpec.read_answers (f : FieldSpec) {bytes : List Byte} (w : Nat) (h : f.off + f.width ≤ bytes.length) :
    ∃ v, f.read bytes w = some v := by simp [FieldSpec.read, memRead, h]

/-- Inside the bytes the byte of a bit field is there. -/
theorem FieldSpec.readByte_answers (f : FieldSpec) {bytes : List Byte} (h : f.off + f.width ≤ bytes.length) :
    ∃ v, f.readByte bytes = some v := by simp [FieldSpec.readByte, memRead, h]

/-- The byte of a bit field is the byte at the field's offset, whatever its width. -/
theorem FieldSpec.readByte_eq (f : FieldSpec) (bytes : List Byte) (hlt : f.off < bytes.length)
    (h : f.off + f.width ≤ bytes.length) : f.readByte bytes = bytes[f.off]? := by
  simp [FieldSpec.readByte, memRead, h, hlt]

/-! ## Every message's operands can be read where its fields lie inside the bytes -/

theorem CalendarLayout.read_answers (l : CalendarLayout) {bytes : List Byte}
    (h : ∀ f ∈ l.fields, f.off + f.width ≤ bytes.length) : ∃ v, l.read bytes = some v := by
  obtain ⟨_, eyear⟩ := l.year.read_answers 16 (h _ (by simp [CalendarLayout.fields]))
  obtain ⟨_, emonth⟩ := l.month.read_answers 8 (h _ (by simp [CalendarLayout.fields]))
  obtain ⟨_, eday⟩ := l.day.read_answers 8 (h _ (by simp [CalendarLayout.fields]))
  obtain ⟨_, ehour⟩ := l.hour.read_answers 8 (h _ (by simp [CalendarLayout.fields]))
  obtain ⟨_, eminute⟩ := l.minute.read_answers 8 (h _ (by simp [CalendarLayout.fields]))
  obtain ⟨_, esecond⟩ := l.second.read_answers 8 (h _ (by simp [CalendarLayout.fields]))
  obtain ⟨_, eoffset⟩ := l.offset.read_answers 8 (h _ (by simp [CalendarLayout.fields]))
  simp [CalendarLayout.read, eyear, emonth, eday, ehour, eminute, esecond, eoffset]

theorem FastfixLayout.read_answers (l : FastfixLayout) {bytes : List Byte}
    (h : ∀ f ∈ l.fields, f.off + f.width ≤ bytes.length) : ∃ v, l.read bytes = some v := by
  obtain ⟨_, estatus⟩ := l.status.readByte_answers (h _ (by simp [FastfixLayout.fields]))
  obtain ⟨_, eage⟩ := l.age.read_answers 8 (h _ (by simp [FastfixLayout.fields]))
  obtain ⟨_, etow⟩ := l.tow.read_answers 32 (h _ (by simp [FastfixLayout.fields]))
  obtain ⟨_, elat⟩ := l.lat.read_answers 32 (h _ (by simp [FastfixLayout.fields]))
  obtain ⟨_, elon⟩ := l.lon.read_answers 32 (h _ (by simp [FastfixLayout.fields]))
  obtain ⟨_, ealt⟩ := l.alt.read_answers 16 (h _ (by simp [FastfixLayout.fields]))
  simp [FastfixLayout.read, estatus, eage, etow, elat, elon, ealt]

theorem GpsfixLayout.read_answers (l : GpsfixLayout) {bytes : List Byte}
    (h : ∀ f ∈ l.fields, f.off + f.width ≤ bytes.length) : ∃ v, l.read bytes = some v := by
  obtain ⟨_, estatus1⟩ := l.status1.readByte_answers (h _ (by simp [GpsfixLayout.fields]))
  obtain ⟨_, estatus2⟩ := l.status2.readByte_answers (h _ (by simp [GpsfixLayout.fields]))
  obtain ⟨_, elat⟩ := l.lat.read_answers 32 (h _ (by simp [GpsfixLayout.fields]))
  obtain ⟨_, elon⟩ := l.lon.read_answers 32 (h _ (by simp [GpsfixLayout.fields]))
  obtain ⟨_, ealt⟩ := l.alt.read_answers 16 (h _ (by simp [GpsfixLayout.fields]))
  obtain ⟨_, ehdg⟩ := l.hdg.read_answers 16 (h _ (by simp [GpsfixLayout.fields]))
  obtain ⟨_, espd⟩ := l.spd.read_answers 16 (h _ (by simp [GpsfixLayout.fields]))
  simp [GpsfixLayout.read, estatus1, estatus2, elat, elon, ealt, ehdg, espd]

theorem UtcconstLayout.read_answers (l : UtcconstLayout) {bytes : List Byte}
    (h : ∀ f ∈ l.fields, f.off + f.width ≤ bytes.length) : ∃ v, l.read bytes = some v := by
  obtain ⟨_, ecal⟩ := l.cal.read_answers (bytes := bytes) fun f hf => h f (by simp [UtcconstLayout.fields, hf])
  obtain ⟨_, epdop⟩ := l.pdop.read_answers 16 (h _ (by simp [UtcconstLayout.fields]))
  obtain ⟨_, ehdop⟩ := l.hdop.read_answers 16 (h _ (by simp [UtcconstLayout.fields]))
  obtain ⟨_, evdop⟩ := l.vdop.read_answers 16 (h _ (by simp [UtcconstLayout.fields]))
  obtain ⟨_, evis⟩ := l.vis.readByte_answers (h _ (by simp [UtcconstLayout.fields]))
  simp [UtcconstLayout.read, ecal, epdop, ehdop, evdop, evis]

theorem UtctimeLayout.read_answers (l : UtctimeLayout) {bytes : List Byte}
    (h : ∀ f ∈ l.fields, f.off + f.width ≤ bytes.length) : ∃ v, l.read bytes = some v := by
  obtain ⟨_, ecal⟩ := l.cal.read_answers (bytes := bytes) fun f hf => h f (by simp [UtctimeLayout.fields, hf])
  obtain ⟨_, etow⟩ := l.tow.read_answers 32 (h _ (by simp [UtctimeLayout.fields]))
  obtain ⟨_, eweek⟩ := l.week.read_answers 16 (h _ (by simp [UtctimeLayout.fields]))
  simp [UtctimeLayout.read, ecal, etow, eweek]

theorem ChanstatLayout.read_answers (l : ChanstatLayout) {bytes : List Byte}
    (h : ∀ f ∈ l.fields, f.off + f.width ≤ bytes.length) : ∃ v, l.read bytes = some v := by
  obtain ⟨_, eindex⟩ := l.index.readByte_answers (h _ (by simp [ChanstatLayout.fields]))
  obtain ⟨_, eprn⟩ := l.prn.read_answers 8 (h _ (by simp [ChanstatLayout.fields]))
  obtain ⟨_, eflags⟩ := l.flags.readByte_answers (h _ (by simp [ChanstatLayout.fields]))
  obtain ⟨_, esnr⟩ := l.snr.read_answers 8 (h _ (by simp [ChanstatLayout.fields]))
  obtain ⟨_, eaz⟩ := l.az.read_answers 16 (h _ (by simp [ChanstatLayout.fields]))
  obtain ⟨_, eel⟩ := l.el.read_answers 8 (h _ (by simp [ChanstatLayout.fields]))
  obtain ⟨_, ealmeph⟩ := l.almeph.readByte_answers (h _ (by simp [ChanstatLayout.fields]))
  simp [ChanstatLayout.read, eindex, eprn, eflags, esnr, eaz, eel, ealmeph]

/-! ## Bits and the checksum -/

/-- Inside the byte a bit field is the slice of its bits. -/
theorem bitsOf_eq (v : Byte) {lo n : Nat} (h : lo + n ≤ 8) : bitsOf v lo n = v.extractLsb' lo n := if_pos h

/-- Below bit 8 a bit field has the bits of the byte, wherever it ends. -/
theorem bitsOf_getLsbD (v : Byte) {lo n k : Nat} (hk : k < n) (h : lo + k < 8) :
    (bitsOf v lo n).getLsbD k = v.getLsbD (lo + k) := by
  unfold bitsOf
  split
  · simp [hk]
  · simp [hk, show k < 8 - lo by omega]

/-- A flag is the bit of its number. -/
theorem flagOf_eq (v : Byte) {n : Nat} (hn : n < 8) : flagOf v n = v.getLsbD n := by
  rw [flagOf, bitsOf_eq v hn]
  rw [Bool.eq_iff_iff, beq_iff_eq]
  constructor
  · intro h
    simpa using congrArg (fun x => x.getLsbD 0) h
  · intro h
    ext i hi
    have : i = 0 := by omega
    subst this
    simpa using h

/-- The identifier of a frame is its second and third byte. -/
theorem memReadBE_header (mark hi lo : Byte) (l : List Byte) :
    memReadBE (mark :: hi :: lo :: l) 1 = some (hi ++ lo) := rfl

/-- The sum register's next value: a byte more adds the byte. -/
theorem byteSum_append_singleton (l : List Byte) (d : Byte) : byteSum (l ++ [d]) = byteSum l + d := by simp [byteSum]

/-- The checksum is the arithmetic sum modulo 256 (`30_encoding.md` R52). -/
theorem byteSum_toNat (l : List Byte) : (byteSum l).toNat = (l.map BitVec.toNat).sum % 256 := by
  have key : ∀ (l : List Byte) (a : Byte), (l.foldl (· + ·) a).toNat = (a.toNat + (l.map BitVec.toNat).sum) % 256 := by
    intro l
    induction l with
    | nil => intro a; simp; omega
    | cons x l ih => intro a; simp [ih]; omega
  simpa [byteSum] using key l 0

/-! ## Bit fields of the encoded bytes -/

theorem status1Byte_fixSrc (f : BitVec 6) (a : BitVec 2) : (status1Byte f a).extractLsb' 0 6 = f := by
  revert f a; decide

theorem status1Byte_altHold (f : BitVec 6) (a : BitVec 2) : (status1Byte f a).extractLsb' 6 2 = a := by
  revert f a; decide

theorem visByte_vis (v : BitVec 4) : (visByte v).extractLsb' 0 4 = v := by revert v; decide

theorem almephByte_alm (a e : BitVec 2) : (almephByte a e).extractLsb' 0 2 = a := by revert a e; decide

theorem almephByte_eph (a e : BitVec 2) : (almephByte a e).extractLsb' 2 2 = e := by revert a e; decide

theorem nibbleByte_bits (a b c d : Bool) :
    (nibbleByte a b c d).getLsbD 0 = a ∧ (nibbleByte a b c d).getLsbD 1 = b ∧
      (nibbleByte a b c d).getLsbD 2 = c ∧ (nibbleByte a b c d).getLsbD 3 = d := by
  revert a b c d; decide

/-- The identifier is the concatenation of its two header bytes. -/
theorem ident_halves (i : Ident) : (i.extractLsb' 8 8 ++ i.extractLsb' 0 8 : BitVec 16) = i := by
  apply BitVec.eq_of_toNat_eq
  simp only [BitVec.toNat_append, BitVec.extractLsb'_toNat]
  rw [← Nat.shiftLeft_add_eq_or_of_lt (by omega)]
  simp only [Nat.shiftLeft_eq, Nat.shiftRight_eq_div_pow]
  omega

end Sys2Proof
end

