-- ==== Sys2Proof/Laws/State.lean ====
section
/-! SUPPORT. One lemma per field per register write of Machine/Ops.lean, true by rfl. -/

namespace Sys2Proof.Machine

variable (s : State)

/-! ## `emit` -/

@[simp] theorem State.emit_config (e : Event) : (s.emit e).config = s.config := rfl
@[simp] theorem State.emit_st (e : Event) : (s.emit e).st = s.st := rfl
@[simp] theorem State.emit_esc (e : Event) : (s.emit e).esc = s.esc := rfl
@[simp] theorem State.emit_buf (e : Event) : (s.emit e).buf = s.buf := rfl
@[simp] theorem State.emit_exp (e : Event) : (s.emit e).exp = s.exp := rfl
@[simp] theorem State.emit_sum (e : Event) : (s.emit e).sum = s.sum := rfl
@[simp] theorem State.emit_fatal (e : Event) : (s.emit e).fatal = s.fatal := rfl
@[simp] theorem State.emit_position (e : Event) : (s.emit e).position = s.position := rfl
@[simp] theorem State.emit_gpsTime (e : Event) : (s.emit e).gpsTime = s.gpsTime := rfl
@[simp] theorem State.emit_channel (e : Event) : (s.emit e).channel = s.channel := rfl
@[simp] theorem State.emit_lastGsv (e : Event) : (s.emit e).lastGsv = s.lastGsv := rfl
@[simp] theorem State.emit_inputs (e : Event) : (s.emit e).inputs = s.inputs := rfl
@[simp] theorem State.emit_now (e : Event) : (s.emit e).now = s.now := rfl
@[simp] theorem State.emit_events (e : Event) : (s.emit e).events = s.events ++ [e] := rfl

/-! ## `toIdle` -/

@[simp] theorem State.toIdle_config : s.toIdle.config = s.config := rfl
@[simp] theorem State.toIdle_st : s.toIdle.st = .idle := rfl
@[simp] theorem State.toIdle_esc : s.toIdle.esc = false := rfl
@[simp] theorem State.toIdle_buf : s.toIdle.buf = [] := rfl
@[simp] theorem State.toIdle_exp : s.toIdle.exp = .undetermined := rfl
@[simp] theorem State.toIdle_sum : s.toIdle.sum = 0 := rfl
@[simp] theorem State.toIdle_fatal : s.toIdle.fatal = s.fatal := rfl
@[simp] theorem State.toIdle_position : s.toIdle.position = s.position := rfl
@[simp] theorem State.toIdle_gpsTime : s.toIdle.gpsTime = s.gpsTime := rfl
@[simp] theorem State.toIdle_channel : s.toIdle.channel = s.channel := rfl
@[simp] theorem State.toIdle_lastGsv : s.toIdle.lastGsv = s.lastGsv := rfl
@[simp] theorem State.toIdle_inputs : s.toIdle.inputs = s.inputs := rfl
@[simp] theorem State.toIdle_now : s.toIdle.now = s.now := rfl
@[simp] theorem State.toIdle_events : s.toIdle.events = s.events := rfl

/-! ## `enterFrame` -/

@[simp] theorem State.enterFrame_config : s.enterFrame.config = s.config := rfl
@[simp] theorem State.enterFrame_st : s.enterFrame.st = .inFrame := rfl
@[simp] theorem State.enterFrame_esc : s.enterFrame.esc = false := rfl
@[simp] theorem State.enterFrame_buf : s.enterFrame.buf = [] := rfl
@[simp] theorem State.enterFrame_exp : s.enterFrame.exp = .undetermined := rfl
@[simp] theorem State.enterFrame_sum : s.enterFrame.sum = 0 := rfl
@[simp] theorem State.enterFrame_fatal : s.enterFrame.fatal = s.fatal := rfl
@[simp] theorem State.enterFrame_position : s.enterFrame.position = s.position := rfl
@[simp] theorem State.enterFrame_gpsTime : s.enterFrame.gpsTime = s.gpsTime := rfl
@[simp] theorem State.enterFrame_channel : s.enterFrame.channel = s.channel := rfl
@[simp] theorem State.enterFrame_lastGsv : s.enterFrame.lastGsv = s.lastGsv := rfl
@[simp] theorem State.enterFrame_inputs : s.enterFrame.inputs = s.inputs := rfl
@[simp] theorem State.enterFrame_now : s.enterFrame.now = s.now := rfl
@[simp] theorem State.enterFrame_events : s.enterFrame.events = s.events := rfl

/-! ## `setEsc` -/

@[simp] theorem State.setEsc_config (e : Bool) : (s.setEsc e).config = s.config := rfl
@[simp] theorem State.setEsc_st (e : Bool) : (s.setEsc e).st = s.st := rfl
@[simp] theorem State.setEsc_esc (e : Bool) : (s.setEsc e).esc = e := rfl
@[simp] theorem State.setEsc_buf (e : Bool) : (s.setEsc e).buf = s.buf := rfl
@[simp] theorem State.setEsc_exp (e : Bool) : (s.setEsc e).exp = s.exp := rfl
@[simp] theorem State.setEsc_sum (e : Bool) : (s.setEsc e).sum = s.sum := rfl
@[simp] theorem State.setEsc_fatal (e : Bool) : (s.setEsc e).fatal = s.fatal := rfl
@[simp] theorem State.setEsc_position (e : Bool) : (s.setEsc e).position = s.position := rfl
@[simp] theorem State.setEsc_gpsTime (e : Bool) : (s.setEsc e).gpsTime = s.gpsTime := rfl
@[simp] theorem State.setEsc_channel (e : Bool) : (s.setEsc e).channel = s.channel := rfl
@[simp] theorem State.setEsc_lastGsv (e : Bool) : (s.setEsc e).lastGsv = s.lastGsv := rfl
@[simp] theorem State.setEsc_inputs (e : Bool) : (s.setEsc e).inputs = s.inputs := rfl
@[simp] theorem State.setEsc_now (e : Bool) : (s.setEsc e).now = s.now := rfl
@[simp] theorem State.setEsc_events (e : Bool) : (s.setEsc e).events = s.events := rfl

/-! ## `setExp` -/

@[simp] theorem State.setExp_config (x : Expected) : (s.setExp x).config = s.config := rfl
@[simp] theorem State.setExp_st (x : Expected) : (s.setExp x).st = s.st := rfl
@[simp] theorem State.setExp_esc (x : Expected) : (s.setExp x).esc = s.esc := rfl
@[simp] theorem State.setExp_buf (x : Expected) : (s.setExp x).buf = s.buf := rfl
@[simp] theorem State.setExp_exp (x : Expected) : (s.setExp x).exp = x := rfl
@[simp] theorem State.setExp_sum (x : Expected) : (s.setExp x).sum = s.sum := rfl
@[simp] theorem State.setExp_fatal (x : Expected) : (s.setExp x).fatal = s.fatal := rfl
@[simp] theorem State.setExp_position (x : Expected) : (s.setExp x).position = s.position := rfl
@[simp] theorem State.setExp_gpsTime (x : Expected) : (s.setExp x).gpsTime = s.gpsTime := rfl
@[simp] theorem State.setExp_channel (x : Expected) : (s.setExp x).channel = s.channel := rfl
@[simp] theorem State.setExp_lastGsv (x : Expected) : (s.setExp x).lastGsv = s.lastGsv := rfl
@[simp] theorem State.setExp_inputs (x : Expected) : (s.setExp x).inputs = s.inputs := rfl
@[simp] theorem State.setExp_now (x : Expected) : (s.setExp x).now = s.now := rfl
@[simp] theorem State.setExp_events (x : Expected) : (s.setExp x).events = s.events := rfl

/-! ## `pushByte` -/

@[simp] theorem State.pushByte_config (d : Byte) : (s.pushByte d).config = s.config := rfl
@[simp] theorem State.pushByte_st (d : Byte) : (s.pushByte d).st = s.st := rfl
@[simp] theorem State.pushByte_esc (d : Byte) : (s.pushByte d).esc = s.esc := rfl
@[simp] theorem State.pushByte_buf (d : Byte) : (s.pushByte d).buf = s.buf ++ [d] := rfl
@[simp] theorem State.pushByte_exp (d : Byte) : (s.pushByte d).exp = s.exp := rfl
@[simp] theorem State.pushByte_sum (d : Byte) : (s.pushByte d).sum = s.sum + d := rfl
@[simp] theorem State.pushByte_fatal (d : Byte) : (s.pushByte d).fatal = s.fatal := rfl
@[simp] theorem State.pushByte_position (d : Byte) : (s.pushByte d).position = s.position := rfl
@[simp] theorem State.pushByte_gpsTime (d : Byte) : (s.pushByte d).gpsTime = s.gpsTime := rfl
@[simp] theorem State.pushByte_channel (d : Byte) : (s.pushByte d).channel = s.channel := rfl
@[simp] theorem State.pushByte_lastGsv (d : Byte) : (s.pushByte d).lastGsv = s.lastGsv := rfl
@[simp] theorem State.pushByte_inputs (d : Byte) : (s.pushByte d).inputs = s.inputs := rfl
@[simp] theorem State.pushByte_now (d : Byte) : (s.pushByte d).now = s.now := rfl
@[simp] theorem State.pushByte_events (d : Byte) : (s.pushByte d).events = s.events := rfl

/-! ## `setFatal` -/

@[simp] theorem State.setFatal_config : s.setFatal.config = s.config := rfl
@[simp] theorem State.setFatal_st : s.setFatal.st = s.st := rfl
@[simp] theorem State.setFatal_esc : s.setFatal.esc = s.esc := rfl
@[simp] theorem State.setFatal_buf : s.setFatal.buf = s.buf := rfl
@[simp] theorem State.setFatal_exp : s.setFatal.exp = s.exp := rfl
@[simp] theorem State.setFatal_sum : s.setFatal.sum = s.sum := rfl
@[simp] theorem State.setFatal_fatal : s.setFatal.fatal = true := rfl
@[simp] theorem State.setFatal_position : s.setFatal.position = s.position := rfl
@[simp] theorem State.setFatal_gpsTime : s.setFatal.gpsTime = s.gpsTime := rfl
@[simp] theorem State.setFatal_channel : s.setFatal.channel = s.channel := rfl
@[simp] theorem State.setFatal_lastGsv : s.setFatal.lastGsv = s.lastGsv := rfl
@[simp] theorem State.setFatal_inputs : s.setFatal.inputs = s.inputs := rfl
@[simp] theorem State.setFatal_now : s.setFatal.now = s.now := rfl
@[simp] theorem State.setFatal_events : s.setFatal.events = s.events := rfl

/-! ## `setPosition` -/

@[simp] theorem State.setPosition_config (p : Position) : (s.setPosition p).config = s.config := rfl
@[simp] theorem State.setPosition_st (p : Position) : (s.setPosition p).st = s.st := rfl
@[simp] theorem State.setPosition_esc (p : Position) : (s.setPosition p).esc = s.esc := rfl
@[simp] theorem State.setPosition_buf (p : Position) : (s.setPosition p).buf = s.buf := rfl
@[simp] theorem State.setPosition_exp (p : Position) : (s.setPosition p).exp = s.exp := rfl
@[simp] theorem State.setPosition_sum (p : Position) : (s.setPosition p).sum = s.sum := rfl
@[simp] theorem State.setPosition_fatal (p : Position) : (s.setPosition p).fatal = s.fatal := rfl
@[simp] theorem State.setPosition_position (p : Position) : (s.setPosition p).position = p := rfl
@[simp] theorem State.setPosition_gpsTime (p : Position) : (s.setPosition p).gpsTime = s.gpsTime := rfl
@[simp] theorem State.setPosition_channel (p : Position) : (s.setPosition p).channel = s.channel := rfl
@[simp] theorem State.setPosition_lastGsv (p : Position) : (s.setPosition p).lastGsv = s.lastGsv := rfl
@[simp] theorem State.setPosition_inputs (p : Position) : (s.setPosition p).inputs = s.inputs := rfl
@[simp] theorem State.setPosition_now (p : Position) : (s.setPosition p).now = s.now := rfl
@[simp] theorem State.setPosition_events (p : Position) : (s.setPosition p).events = s.events := rfl

/-! ## `setGpsTime` -/

@[simp] theorem State.setGpsTime_config (t : GpsTime) : (s.setGpsTime t).config = s.config := rfl
@[simp] theorem State.setGpsTime_st (t : GpsTime) : (s.setGpsTime t).st = s.st := rfl
@[simp] theorem State.setGpsTime_esc (t : GpsTime) : (s.setGpsTime t).esc = s.esc := rfl
@[simp] theorem State.setGpsTime_buf (t : GpsTime) : (s.setGpsTime t).buf = s.buf := rfl
@[simp] theorem State.setGpsTime_exp (t : GpsTime) : (s.setGpsTime t).exp = s.exp := rfl
@[simp] theorem State.setGpsTime_sum (t : GpsTime) : (s.setGpsTime t).sum = s.sum := rfl
@[simp] theorem State.setGpsTime_fatal (t : GpsTime) : (s.setGpsTime t).fatal = s.fatal := rfl
@[simp] theorem State.setGpsTime_position (t : GpsTime) : (s.setGpsTime t).position = s.position := rfl
@[simp] theorem State.setGpsTime_gpsTime (t : GpsTime) : (s.setGpsTime t).gpsTime = t := rfl
@[simp] theorem State.setGpsTime_channel (t : GpsTime) : (s.setGpsTime t).channel = s.channel := rfl
@[simp] theorem State.setGpsTime_lastGsv (t : GpsTime) : (s.setGpsTime t).lastGsv = s.lastGsv := rfl
@[simp] theorem State.setGpsTime_inputs (t : GpsTime) : (s.setGpsTime t).inputs = s.inputs := rfl
@[simp] theorem State.setGpsTime_now (t : GpsTime) : (s.setGpsTime t).now = s.now := rfl
@[simp] theorem State.setGpsTime_events (t : GpsTime) : (s.setGpsTime t).events = s.events := rfl

/-! ## `setChannel` -/

@[simp] theorem State.setChannel_config (i : SlotIndex) (c : ChannelRec) : (s.setChannel i c).config = s.config := rfl
@[simp] theorem State.setChannel_st (i : SlotIndex) (c : ChannelRec) : (s.setChannel i c).st = s.st := rfl
@[simp] theorem State.setChannel_esc (i : SlotIndex) (c : ChannelRec) : (s.setChannel i c).esc = s.esc := rfl
@[simp] theorem State.setChannel_buf (i : SlotIndex) (c : ChannelRec) : (s.setChannel i c).buf = s.buf := rfl
@[simp] theorem State.setChannel_exp (i : SlotIndex) (c : ChannelRec) : (s.setChannel i c).exp = s.exp := rfl
@[simp] theorem State.setChannel_sum (i : SlotIndex) (c : ChannelRec) : (s.setChannel i c).sum = s.sum := rfl
@[simp] theorem State.setChannel_fatal (i : SlotIndex) (c : ChannelRec) : (s.setChannel i c).fatal = s.fatal := rfl
@[simp] theorem State.setChannel_position (i : SlotIndex) (c : ChannelRec) : (s.setChannel i c).position = s.position := rfl
@[simp] theorem State.setChannel_gpsTime (i : SlotIndex) (c : ChannelRec) : (s.setChannel i c).gpsTime = s.gpsTime := rfl
@[simp] theorem State.setChannel_channel (i : SlotIndex) (c : ChannelRec) : (s.setChannel i c).channel = s.channel.set i (some c) := rfl
@[simp] theorem State.setChannel_lastGsv (i : SlotIndex) (c : ChannelRec) : (s.setChannel i c).lastGsv = s.lastGsv := rfl
@[simp] theorem State.setChannel_inputs (i : SlotIndex) (c : ChannelRec) : (s.setChannel i c).inputs = s.inputs := rfl
@[simp] theorem State.setChannel_now (i : SlotIndex) (c : ChannelRec) : (s.setChannel i c).now = s.now := rfl
@[simp] theorem State.setChannel_events (i : SlotIndex) (c : ChannelRec) : (s.setChannel i c).events = s.events := rfl

/-! ## `setTrkCount` -/

@[simp] theorem State.setTrkCount_config (n : Nat) : (s.setTrkCount n).config = s.config := rfl
@[simp] theorem State.setTrkCount_st (n : Nat) : (s.setTrkCount n).st = s.st := rfl
@[simp] theorem State.setTrkCount_esc (n : Nat) : (s.setTrkCount n).esc = s.esc := rfl
@[simp] theorem State.setTrkCount_buf (n : Nat) : (s.setTrkCount n).buf = s.buf := rfl
@[simp] theorem State.setTrkCount_exp (n : Nat) : (s.setTrkCount n).exp = s.exp := rfl
@[simp] theorem State.setTrkCount_sum (n : Nat) : (s.setTrkCount n).sum = s.sum := rfl
@[simp] theorem State.setTrkCount_fatal (n : Nat) : (s.setTrkCount n).fatal = s.fatal := rfl
@[simp] theorem State.setTrkCount_position (n : Nat) : (s.setTrkCount n).position = { s.position with trkCount := BitVec.ofNat 4 n } := rfl
@[simp] theorem State.setTrkCount_gpsTime (n : Nat) : (s.setTrkCount n).gpsTime = s.gpsTime := rfl
@[simp] theorem State.setTrkCount_channel (n : Nat) : (s.setTrkCount n).channel = s.channel := rfl
@[simp] theorem State.setTrkCount_lastGsv (n : Nat) : (s.setTrkCount n).lastGsv = s.lastGsv := rfl
@[simp] theorem State.setTrkCount_inputs (n : Nat) : (s.setTrkCount n).inputs = s.inputs := rfl
@[simp] theorem State.setTrkCount_now (n : Nat) : (s.setTrkCount n).now = s.now := rfl
@[simp] theorem State.setTrkCount_events (n : Nat) : (s.setTrkCount n).events = s.events := rfl

/-! ## `setLastGsv` -/

@[simp] theorem State.setLastGsv_config (t : Nat) : (s.setLastGsv t).config = s.config := rfl
@[simp] theorem State.setLastGsv_st (t : Nat) : (s.setLastGsv t).st = s.st := rfl
@[simp] theorem State.setLastGsv_esc (t : Nat) : (s.setLastGsv t).esc = s.esc := rfl
@[simp] theorem State.setLastGsv_buf (t : Nat) : (s.setLastGsv t).buf = s.buf := rfl
@[simp] theorem State.setLastGsv_exp (t : Nat) : (s.setLastGsv t).exp = s.exp := rfl
@[simp] theorem State.setLastGsv_sum (t : Nat) : (s.setLastGsv t).sum = s.sum := rfl
@[simp] theorem State.setLastGsv_fatal (t : Nat) : (s.setLastGsv t).fatal = s.fatal := rfl
@[simp] theorem State.setLastGsv_position (t : Nat) : (s.setLastGsv t).position = s.position := rfl
@[simp] theorem State.setLastGsv_gpsTime (t : Nat) : (s.setLastGsv t).gpsTime = s.gpsTime := rfl
@[simp] theorem State.setLastGsv_channel (t : Nat) : (s.setLastGsv t).channel = s.channel := rfl
@[simp] theorem State.setLastGsv_lastGsv (t : Nat) : (s.setLastGsv t).lastGsv = some t := rfl
@[simp] theorem State.setLastGsv_inputs (t : Nat) : (s.setLastGsv t).inputs = s.inputs := rfl
@[simp] theorem State.setLastGsv_now (t : Nat) : (s.setLastGsv t).now = s.now := rfl
@[simp] theorem State.setLastGsv_events (t : Nat) : (s.setLastGsv t).events = s.events := rfl

/-! ## `clearEvents` -/

@[simp] theorem State.clearEvents_config : s.clearEvents.config = s.config := rfl
@[simp] theorem State.clearEvents_st : s.clearEvents.st = s.st := rfl
@[simp] theorem State.clearEvents_esc : s.clearEvents.esc = s.esc := rfl
@[simp] theorem State.clearEvents_buf : s.clearEvents.buf = s.buf := rfl
@[simp] theorem State.clearEvents_exp : s.clearEvents.exp = s.exp := rfl
@[simp] theorem State.clearEvents_sum : s.clearEvents.sum = s.sum := rfl
@[simp] theorem State.clearEvents_fatal : s.clearEvents.fatal = s.fatal := rfl
@[simp] theorem State.clearEvents_position : s.clearEvents.position = s.position := rfl
@[simp] theorem State.clearEvents_gpsTime : s.clearEvents.gpsTime = s.gpsTime := rfl
@[simp] theorem State.clearEvents_channel : s.clearEvents.channel = s.channel := rfl
@[simp] theorem State.clearEvents_lastGsv : s.clearEvents.lastGsv = s.lastGsv := rfl
@[simp] theorem State.clearEvents_inputs : s.clearEvents.inputs = s.inputs := rfl
@[simp] theorem State.clearEvents_now : s.clearEvents.now = s.now := rfl
@[simp] theorem State.clearEvents_events : s.clearEvents.events = [] := rfl

/-! ## `takeByte` -/

@[simp] theorem State.takeByte_config (rest : List Input) (n : Nat) : (s.takeByte rest n).config = s.config := rfl
@[simp] theorem State.takeByte_st (rest : List Input) (n : Nat) : (s.takeByte rest n).st = s.st := rfl
@[simp] theorem State.takeByte_esc (rest : List Input) (n : Nat) : (s.takeByte rest n).esc = s.esc := rfl
@[simp] theorem State.takeByte_buf (rest : List Input) (n : Nat) : (s.takeByte rest n).buf = s.buf := rfl
@[simp] theorem State.takeByte_exp (rest : List Input) (n : Nat) : (s.takeByte rest n).exp = s.exp := rfl
@[simp] theorem State.takeByte_sum (rest : List Input) (n : Nat) : (s.takeByte rest n).sum = s.sum := rfl
@[simp] theorem State.takeByte_fatal (rest : List Input) (n : Nat) : (s.takeByte rest n).fatal = s.fatal := rfl
@[simp] theorem State.takeByte_position (rest : List Input) (n : Nat) : (s.takeByte rest n).position = s.position := rfl
@[simp] theorem State.takeByte_gpsTime (rest : List Input) (n : Nat) : (s.takeByte rest n).gpsTime = s.gpsTime := rfl
@[simp] theorem State.takeByte_channel (rest : List Input) (n : Nat) : (s.takeByte rest n).channel = s.channel := rfl
@[simp] theorem State.takeByte_lastGsv (rest : List Input) (n : Nat) : (s.takeByte rest n).lastGsv = s.lastGsv := rfl
@[simp] theorem State.takeByte_inputs (rest : List Input) (n : Nat) : (s.takeByte rest n).inputs = rest := rfl
@[simp] theorem State.takeByte_now (rest : List Input) (n : Nat) : (s.takeByte rest n).now = n := rfl
@[simp] theorem State.takeByte_events (rest : List Input) (n : Nat) : (s.takeByte rest n).events = s.events := rfl

/-! ## `dropInput` -/

@[simp] theorem State.dropInput_config (rest : List Input) : (s.dropInput rest).config = s.config := rfl
@[simp] theorem State.dropInput_st (rest : List Input) : (s.dropInput rest).st = s.st := rfl
@[simp] theorem State.dropInput_esc (rest : List Input) : (s.dropInput rest).esc = s.esc := rfl
@[simp] theorem State.dropInput_buf (rest : List Input) : (s.dropInput rest).buf = s.buf := rfl
@[simp] theorem State.dropInput_exp (rest : List Input) : (s.dropInput rest).exp = s.exp := rfl
@[simp] theorem State.dropInput_sum (rest : List Input) : (s.dropInput rest).sum = s.sum := rfl
@[simp] theorem State.dropInput_fatal (rest : List Input) : (s.dropInput rest).fatal = s.fatal := rfl
@[simp] theorem State.dropInput_position (rest : List Input) : (s.dropInput rest).position = s.position := rfl
@[simp] theorem State.dropInput_gpsTime (rest : List Input) : (s.dropInput rest).gpsTime = s.gpsTime := rfl
@[simp] theorem State.dropInput_channel (rest : List Input) : (s.dropInput rest).channel = s.channel := rfl
@[simp] theorem State.dropInput_lastGsv (rest : List Input) : (s.dropInput rest).lastGsv = s.lastGsv := rfl
@[simp] theorem State.dropInput_inputs (rest : List Input) : (s.dropInput rest).inputs = rest := rfl
@[simp] theorem State.dropInput_now (rest : List Input) : (s.dropInput rest).now = s.now := rfl
@[simp] theorem State.dropInput_events (rest : List Input) : (s.dropInput rest).events = s.events := rfl

end Sys2Proof.Machine
end

