-- ==== Sys2Proof/Laws/Ops.lean ====
section
/-! SUPPORT. For each shared operation, once, everything it can do: taking a fault, LOOKUP, APPEND, the byte rules, the
throttle and DISPATCH; and that the operations on the buffer keep its form. -/

namespace Sys2Proof.Machine

/-! ## Taking a fault -/

section
variable (r : Report) (s : State)

@[simp] theorem raise_config : (raise r s).config = s.config := by cases r <;> rfl
@[simp] theorem raise_position : (raise r s).position = s.position := by cases r <;> rfl
@[simp] theorem raise_gpsTime : (raise r s).gpsTime = s.gpsTime := by cases r <;> rfl
@[simp] theorem raise_channel : (raise r s).channel = s.channel := by cases r <;> rfl
@[simp] theorem raise_lastGsv : (raise r s).lastGsv = s.lastGsv := by cases r <;> rfl
@[simp] theorem raise_inputs : (raise r s).inputs = s.inputs := by cases r <;> rfl
@[simp] theorem raise_now : (raise r s).now = s.now := by cases r <;> rfl
@[simp] theorem raise_events : (raise r s).events = s.events ++ [.fault r] := by cases r <;> rfl

end

theorem raise_framingFault (i : Ident) (L : Nat) (s : State) :
    raise (.framingFault i L) s = (s.emit (.fault (.framingFault i L))).toIdle := rfl

theorem raise_shortFrame (n : Nat) (s : State) :
    raise (.shortFrame n) s = (s.emit (.fault (.shortFrame n))).toIdle := rfl

theorem raise_bufferOverflow (n : Nat) (s : State) :
    raise (.bufferOverflow n) s = (s.emit (.fault (.bufferOverflow n))).toIdle := rfl

theorem raise_sourceUnavailable (s : State) :
    raise .sourceUnavailable s = (s.emit (.fault .sourceUnavailable)).toIdle.setFatal := rfl

theorem raise_checksumMismatch (i : Ident) (s : State) :
    raise (.checksumMismatch i) s = s.emit (.fault (.checksumMismatch i)) := rfl

theorem raise_channelIndexOutOfRange (b : Byte) (s : State) :
    raise (.channelIndexOutOfRange b) s = s.emit (.fault (.channelIndexOutOfRange b)) := rfl

/-! ## Reads of the identifier -/

/-- The identifier read succeeds exactly when both bytes are there. -/
theorem memReadBE_isSome {bytes : List Byte} {off : Nat} (h : off + 1 < bytes.length) :
    ∃ i, memReadBE bytes off = some i := by
  have h0 : off < bytes.length := by omega
  exact ⟨bytes[off] ++ bytes[off + 1], by simp [memReadBE, h, h0]⟩

/-- Where the identifier read answers, the bytes are there. -/
theorem length_of_memReadBE {bytes : List Byte} {off : Nat} {i : Ident} (h : memReadBE bytes off = some i) :
    off + 1 < bytes.length := by
  unfold memReadBE at h
  split at h
  · next h1 => exact (List.getElem?_eq_some_iff.mp h1).1
  · cases h

/-- Bytes added at the end do not change the identifier. -/
theorem memReadBE_append {bytes more : List Byte} {off : Nat} (h : off + 1 < bytes.length) :
    memReadBE (bytes ++ more) off = memReadBE bytes off := by
  have h0 : off < bytes.length := by omega
  simp [memReadBE, List.getElem?_append_left h, List.getElem?_append_left h0]

/-! ## LOOKUP and APPEND -/

/-- Where LOOKUP answers, it has written `exp` and nothing else. -/
theorem lookup_cases {s t : State} (h : lookup s = .next t) :
    ∃ i, memReadBE s.buf 1 = some i ∧ t = s.setExp (expectedFor s.config i) := by
  unfold lookup at h
  split at h
  · next i hi => exact ⟨i, hi, by simpa using h.symm⟩
  · cases h

/-- LOOKUP answers as soon as three bytes are buffered. -/
theorem lookup_answers {s : State} (h : 3 ≤ s.buf.length) :
    ∃ i, memReadBE s.buf 1 = some i ∧ lookup s = .next (s.setExp (expectedFor s.config i)) := by
  obtain ⟨i, hi⟩ := memReadBE_isSome (bytes := s.buf) (off := 1) (by omega)
  exact ⟨i, hi, by simp [lookup, hi]⟩

/-- Everything APPEND can do: it overflows, it looks up, or it only stores. It never stops. -/
theorem append_cases (d : Byte) (s : State) :
    (s.buf.length = s.config.bufMax ∧ append d s = .next (raise (.bufferOverflow s.buf.length) s)) ∨
    (s.buf.length ≠ s.config.bufMax ∧ s.buf.length = 2 ∧ ∃ i, memReadBE (s.buf ++ [d]) 1 = some i ∧
      append d s = .next ((s.pushByte d).setExp (expectedFor s.config i))) ∨
    (s.buf.length ≠ s.config.bufMax ∧ s.buf.length ≠ 2 ∧ append d s = .next (s.pushByte d)) := by
  unfold append
  split
  · next h => exact .inl ⟨h, rfl⟩
  · next h =>
    split
    · next h3 =>
      have h2 : s.buf.length = 2 := by omega
      obtain ⟨i, hi, hl⟩ := lookup_answers (s := s.pushByte d) (by simp [h2])
      exact .inr (.inl ⟨h, h2, i, hi, hl⟩)
    · next h3 => exact .inr (.inr ⟨h, by omega, rfl⟩)

/-! ## The byte rules -/

/-- Where a framing fault answers, the identifier could be read. -/
theorem framingFault_cases {s t : State} (h : framingFault s = .next t) :
    ∃ i, memReadBE s.buf 1 = some i ∧ t = raise (.framingFault i s.buf.length) s := by
  unfold framingFault at h
  split at h
  · next i hi => exact ⟨i, hi, by simpa using h.symm⟩
  · cases h

/-- A byte in `InFrame` faults on a full buffer, is escaped data, or has its own meaning. -/
theorem receive_cases (b : Byte) (plain : Result) (s : State) :
    (s.full = true ∧ b ≠ endMarker ∧ receive b plain s = framingFault s) ∨
    (¬(s.full = true ∧ b ≠ endMarker) ∧ s.esc = true ∧ receive b plain s = escapedByte b s) ∨
    (¬(s.full = true ∧ b ≠ endMarker) ∧ s.esc = false ∧ receive b plain s = plain) := by
  unfold receive
  by_cases h : s.full = true ∧ b ≠ endMarker
  · exact .inl ⟨h.1, h.2, if_pos (by simpa [bne_iff_ne] using h)⟩
  · rw [if_neg (by simpa [bne_iff_ne] using h)]
    cases he : s.esc
    · exact .inr (.inr ⟨h, rfl, rfl⟩)
    · exact .inr (.inl ⟨h, rfl, rfl⟩)

/-- `full` says that the expected length is known and reached. -/
theorem full_iff (s : State) : s.full = true ↔ s.exp = .known s.buf.length := by
  simp [State.full]

/-- `complete` says what line 8 of `40_framing.md` R65 says. -/
theorem complete_iff (s : State) :
    s.complete = true ↔ 3 ≤ s.buf.length ∧ (s.exp = .unknown ∨ s.exp = .known s.buf.length) := by
  simp [State.complete, State.scanning, State.full]

/-! ## The buffer keeps its form -/

/-- The addresses of the buffer's cells rise from 0 without a gap. -/
theorem Memory.cells_addresses (m : Memory) : m.cells.map Prod.fst = List.range m.length := by
  unfold Memory.cells
  exact List.map_fst_zip (by simp)

/-- APPEND keeps the buffer within its capacity. -/
theorem append_keeps_wf {d : Byte} {s t : State} (h : append d s = .next t)
    (hw : Memory.wf s.config.bufMax s.buf = true) : Memory.wf t.config.bufMax t.buf = true := by
  simp only [Memory.wf, decide_eq_true_eq] at *
  rcases append_cases d s with ⟨_, e⟩ | ⟨h1, _, i, _, e⟩ | ⟨h1, _, e⟩ <;> rw [e] at h <;> cases h
  · simp [raise_bufferOverflow]
  · simp; omega
  · simp; omega

/-- `TO_IDLE` and the start of a frame leave an empty buffer. -/
theorem toIdle_keeps_wf (s : State) : Memory.wf s.toIdle.config.bufMax s.toIdle.buf = true := by simp [Memory.wf]
theorem enterFrame_keeps_wf (s : State) : Memory.wf s.enterFrame.config.bufMax s.enterFrame.buf = true := by
  simp [Memory.wf]

/-- A write at the end of the buffer reads back, and every other offset reads as before. -/
theorem read_pushByte (s : State) (d : Byte) (a : Nat) :
    Memory.read (s.pushByte d).buf a = if a = s.buf.length then some d else Memory.read s.buf a := by
  simp only [Memory.read, State.pushByte_buf]
  split
  · next h => simp [h]
  · next h =>
    rcases Nat.lt_or_gt_of_ne h with h | h
    · exact List.getElem?_append_left h
    · rw [List.getElem?_eq_none (by simp; omega), List.getElem?_eq_none (by omega)]

/-- The buffer of reset is within its capacity. -/
theorem reset_memory_wf (c : Config) : Memory.wf (State.resetWith c).config.bufMax (State.resetWith c).buf = true := by
  simp [Memory.wf, State.resetWith]

/-! ## The dispatcher -/

section
variable (f : ChanstatFields) (s : State)

@[simp] theorem clampReport_config : (clampReport f.index s).config = s.config := by unfold clampReport; split <;> simp
@[simp] theorem clampReport_position : (clampReport f.index s).position = s.position := by
  unfold clampReport; split <;> simp
@[simp] theorem clampReport_gpsTime : (clampReport f.index s).gpsTime = s.gpsTime := by
  unfold clampReport; split <;> simp
@[simp] theorem clampReport_channel : (clampReport f.index s).channel = s.channel := by
  unfold clampReport; split <;> simp
@[simp] theorem clampReport_lastGsv : (clampReport f.index s).lastGsv = s.lastGsv := by
  unfold clampReport; split <;> simp
@[simp] theorem clampReport_inputs : (clampReport f.index s).inputs = s.inputs := by
  unfold clampReport; split <;> simp
@[simp] theorem clampReport_now : (clampReport f.index s).now = s.now := by unfold clampReport; split <;> simp

end

/-- The report of the clamp is one event, or nothing. -/
theorem clampReport_eq (raw : Byte) (s : State) :
    clampReport raw s = if 11 < raw.toNat then s.emit (.fault (.channelIndexOutOfRange raw)) else s := rfl

/-- The slot of the clamp, as a number. -/
theorem clampSlot_val (raw : Byte) : (clampSlot raw).val = if raw.toNat ≤ 11 then raw.toNat else 11 := by
  unfold clampSlot
  split <;> split <;> first | rfl | omega

/-- The registers of a channel message before the throttle, as one record update. -/
theorem writeSlot_eq (f : ChanstatFields) (s : State) :
    writeSlot f s =
      { s with
        channel := s.channel.set (clampSlot f.index) (some (channelRecOf f))
        position :=
          { s.position with
            trkCount := BitVec.ofNat 4 (trackedCount (s.channel.set (clampSlot f.index) (some (channelRecOf f)))) }
        events := s.events ++ if 11 < f.index.toNat then [.fault (.channelIndexOutOfRange f.index)] else [] } := by
  unfold writeSlot
  rw [clampReport_eq]
  split <;> simp [State.setTrkCount, State.setChannel, State.emit]

/-- The meaning of `CHANSTAT` as one record update over the clamp, the tracked count and the throttle. -/
theorem execChanstat_eq (f : ChanstatFields) (s : State) :
    execChanstat f s =
      let ch := s.channel.set (clampSlot f.index) (some (channelRecOf f))
      let due := throttleDue s.lastGsv s.config.throttleTicks s.now
      .next { s with
        channel := ch
        position := { s.position with trkCount := BitVec.ofNat 4 (trackedCount ch) }
        lastGsv := if due then some s.now else s.lastGsv
        events := s.events ++
          ((if 11 < f.index.toNat then [.fault (.channelIndexOutOfRange f.index)] else []) ++
            [.dispatch .chanstat due (throttleReqs due (visibleSlots ch))]) } := by
  simp only [execChanstat, writeSlot_eq]
  cases throttleDue s.lastGsv s.config.throttleTicks s.now <;>
    simp [throttleWrite, State.setLastGsv, State.emit]

/-- Everything DISPATCH can do once the identifier is read: the scanned drop, the strict drop, or the routine of the
decoded message. -/
theorem dispatch_cases {f : Frame} {s t : State} (h : dispatch f s = .next t) :
    ∃ i s1, memReadBE f.bytes 1 = some i ∧
      s1 = (if f.valid then s else s.emit (.fault (.checksumMismatch i))) ∧
      ((f.scanned = true ∧ t = s1.emit (.drop .unknownMessageId i)) ∨
       (f.scanned = false ∧ f.valid = false ∧ s.config.dispatchInvalid = false ∧
          t = s1.emit (.drop .checksumMismatch i)) ∨
       (f.scanned = false ∧ (f.valid = true ∨ s.config.dispatchInvalid = true) ∧
          ∃ m, decodeFrame s.config.layout f.bytes = .ok m ∧ runMessage m s1 = .next t)) := by
  unfold dispatch at h
  split at h
  · cases h
  · next i hi =>
    refine ⟨i, _, hi, rfl, ?_⟩
    cases hs : f.scanned <;> cases hv : f.valid <;> cases hd : s.config.dispatchInvalid <;>
      simp only [hs, hv, hd, dispatchDecoded, raise_checksumMismatch, execUnknown, Bool.not_true, Bool.not_false,
        Bool.and_self, Bool.and_true, Bool.and_false, if_true, if_false,
        Bool.false_eq_true, State.emit_config, Host.Outcome.next.injEq] at h ⊢ <;>
      first
        | exact .inl ⟨trivial, h.symm⟩
        | exact .inr (.inl ⟨trivial, trivial, trivial, h.symm⟩)
        | (right; right
           refine ⟨trivial, by simp, ?_⟩
           split at h
           · next m hm => exact ⟨m, hm, h⟩
           · cases h
           · cases h)

/-- The routine of a message is the meaning of its instruction. -/
theorem runMessage_answers (m : Message) (s : State) : ∃ t, runMessage m s = .next t := by
  cases m <;> exact ⟨_, rfl⟩

end Sys2Proof.Machine
end

