-- ==== Sys2Proof/Laws/Framing.lean ====
section
/-! SUPPORT. The meaning of a wire byte by state, as one case list (`40_framing.md` R65 lines 3 to 10), and what a step
can do. -/

namespace Sys2Proof.Machine

/-- In `Idle` a byte starts a frame or does nothing. -/
theorem exec_byte_idle {s : State} (h : s.st = .idle) (b : Byte) :
    exec (decodeByte b) s = if b = syncByte then startFrame s else .next s := by
  unfold decodeByte
  split
  · simp [exec, execSync, h]
  · split
    · simp [exec, execEsc, h]
    · split
      · simp [exec, execEndByte, h]
      · simp [exec, execData, h]

/-- What a byte means in `InFrame` once lines 5 and 6 do not apply. -/
def plainByte (b : Byte) (s : State) : Result :=
  if b = escByte then .next (s.setEsc true)
  else if b = endMarker then (if s.complete then completeFrame s else .next (raise (.shortFrame s.buf.length) s))
  else append b s

/-- In `InFrame` a byte is received with its own meaning. -/
theorem exec_byte_inFrame {s : State} (h : s.st = .inFrame) (b : Byte) :
    exec (decodeByte b) s = receive b (plainByte b s) s := by
  unfold decodeByte
  split
  · next e => subst e; simp [exec, execSync, h, plainByte]
  · split
    · next e => subst e; simp [exec, execEsc, h, plainByte]
    · split
      · next e => subst e; simp [exec, execEndByte, h, plainByte]
      · next h1 h2 h3 => rw [plainByte, if_neg h2, if_neg h3]; simp [exec, execData, h]

/-- The start of a frame: the framing registers clear, with the sync byte stored where the configuration says so. -/
theorem startFrame_eq {s : State} (h : 4 ≤ s.config.bufMax) :
    startFrame s = .next (if s.config.storeSync then s.enterFrame.pushByte syncByte else s.enterFrame) := by
  unfold startFrame
  split
  · rcases append_cases syncByte s.enterFrame with ⟨e, _⟩ | ⟨_, e, _⟩ | ⟨_, _, e⟩
    · simp at e; omega
    · simp at e
    · exact e
  · rfl

/-- Everything a step can do: nothing waits, a fatal machine drops its input, the source fails, or a byte runs. -/
theorem step_cases {s t : State} (h : step s = .next t) :
    s.config.wf = true ∧
    ((s.inputs = [] ∧ t = s.clearEvents) ∨
     (∃ i rest, s.inputs = i :: rest ∧ s.fatal = true ∧ t = s.clearEvents.dropInput rest) ∨
     (∃ rest, s.inputs = .sourceFail :: rest ∧ s.fatal = false ∧
        t = raise .sourceUnavailable (s.clearEvents.dropInput rest)) ∨
     (∃ b n rest, s.inputs = .byte b n :: rest ∧ s.fatal = false ∧
        exec (decodeByte b) (s.clearEvents.takeByte rest n) = .next t)) := by
  unfold step at h
  split at h
  · next hw =>
    refine ⟨hw, ?_⟩
    unfold fetch at h
    split at h
    · next u hu =>
      cases h
      split at hu
      · next hi => cases hu; exact .inl ⟨hi, rfl⟩
      · next b n rest hi =>
        split at hu
        · next hf => cases hu; exact .inr (.inl ⟨_, rest, hi, hf, rfl⟩)
        · cases hu
      · next rest hi =>
        split at hu
        · next hf => cases hu; exact .inr (.inl ⟨_, rest, hi, hf, rfl⟩)
        · next hf => cases hu; exact .inr (.inr (.inl ⟨rest, hi, by simpa using hf, rfl⟩))
    · next i u hu =>
      split at hu
      · cases hu
      · next b n rest hi =>
        split at hu
        · cases hu
        · next hf => cases hu; exact .inr (.inr (.inr ⟨b, n, rest, hi, by simpa using hf, h⟩))
      · split at hu <;> cases hu
  · cases h

end Sys2Proof.Machine
end

