-- ==== Sys2Proof/Laws/PerInstr.lean ====
section
/-! SUPPORT. A fact about every instruction as syntax, one lemma a constructor. -/

namespace Sys2Proof.Laws

/-- How many bytes the words of an instruction are: one wire byte at level 1; at level 2 the length of the default table,
3 header bytes, the payload and the sum byte (`30_encoding.md` R53), and 4 for a frame without payload. -/
def EncodeLength.expected : Instr → Nat
  | .sync => 1
  | .esc => 1
  | .endByte => 1
  | .data _ => 1
  | .fastfix _ _ => 20
  | .gpsfix _ _ => 20
  | .utcconst _ _ => 18
  | .utctime _ _ => 17
  | .chanstat _ _ => 11
  | .unknown _ _ => 4

/-- The encoder writes exactly that many bytes. -/
def EncodeLength.Statement (i : Instr) : Prop := (encode i).length = EncodeLength.expected i

/-- `leBytes n` writes `n` bytes. -/
theorem leBytes_length (n v : Nat) : (leBytes n v).length = n := by
  induction n generalizing v with
  | zero => rfl
  | succ n ih => simp [leBytes, ih]

/-- A frame has its three header bytes, its payload and its sum byte. -/
theorem frameBytes_length (mark : Byte) (ident : Ident) (payload : List Byte) :
    (frameBytes mark ident payload).length = payload.length + 4 := by
  simp [frameBytes]

theorem EncodeLength.sync : EncodeLength.Statement .sync := rfl
theorem EncodeLength.esc : EncodeLength.Statement .esc := rfl
theorem EncodeLength.endByte : EncodeLength.Statement .endByte := rfl
theorem EncodeLength.data (b : Byte) : EncodeLength.Statement (.data b) := rfl

theorem EncodeLength.fastfix (mark : Byte) (f : FastfixFields) : EncodeLength.Statement (.fastfix mark f) := by
  simp [EncodeLength.Statement, EncodeLength.expected, encode, encodeMessage, frameBytes_length, Message.payload,
    leBytes_length]

theorem EncodeLength.gpsfix (mark : Byte) (f : GpsfixFields) : EncodeLength.Statement (.gpsfix mark f) := by
  simp [EncodeLength.Statement, EncodeLength.expected, encode, encodeMessage, frameBytes_length, Message.payload,
    leBytes_length]

theorem EncodeLength.utcconst (mark : Byte) (f : UtcconstFields) : EncodeLength.Statement (.utcconst mark f) := by
  simp [EncodeLength.Statement, EncodeLength.expected, encode, encodeMessage, frameBytes_length, Message.payload,
    leBytes_length, Calendar.bytes]

theorem EncodeLength.utctime (mark : Byte) (f : UtctimeFields) : EncodeLength.Statement (.utctime mark f) := by
  simp [EncodeLength.Statement, EncodeLength.expected, encode, encodeMessage, frameBytes_length, Message.payload,
    leBytes_length, Calendar.bytes]

theorem EncodeLength.chanstat (mark : Byte) (f : ChanstatFields) : EncodeLength.Statement (.chanstat mark f) := by
  simp [EncodeLength.Statement, EncodeLength.expected, encode, encodeMessage, frameBytes_length, Message.payload]

theorem EncodeLength.unknown (mark : Byte) (ident : Ident) : EncodeLength.Statement (.unknown mark ident) := by
  simp [EncodeLength.Statement, EncodeLength.expected, encode, encodeMessage, frameBytes_length, Message.payload]

end Sys2Proof.Laws
end

