-- ==== Sys2Proof/Tests/Slice0.lean ====
section
/-! SUPPORT. The model's own tests. Every expected value is written out from spec/ (the encoding tables, the vectors of
95_test_vectors.md, the traces of its programs) by hand. The last part shows, for each obligation with hypotheses, a
concrete state and operands that meet them. -/

namespace Sys2Proof.Tests

open Sys2Proof Sys2Proof.Machine

/-! ## Helpers -/

/-- The next state, where there is one. -/
def nextOf : Result → Option State
  | .next t => some t
  | .fault _ => none
  | .refused _ => none

/-- The refusal, where there is one. -/
def refusalOf : Result → Option Refusal
  | .refused r => some r
  | .next _ => none
  | .fault _ => none

/-- The reset state with one byte waiting at clock value `n`. -/
def waiting (b : Byte) (n : Nat) : State := { State.reset with inputs := [.byte b n] }

/-- A frame being collected: these bytes in the buffer, END waiting. -/
def collected (bytes : List Byte) : State := placeFrame State.reset bytes

/-- The same with no escape pending and one other byte waiting. -/
def collecting (bytes : List Byte) (b : Byte) : State := { collected bytes with inputs := [.byte b 0] }

/-- The same with the escape flag set. -/
def escaping (bytes : List Byte) (b : Byte) : State := { collecting bytes b with esc := true }

/-- The events and the framing registers after a step. -/
structure Seen where
  events : List Event
  st : FrameSt
  esc : Bool
  buf : List Byte
  exp : Expected
deriving DecidableEq, Repr

/-- The events and the framing registers after a step on a state. -/
def after (s : State) : Option Seen :=
  (nextOf (step s)).map fun t => { events := t.events, st := t.st, esc := t.esc, buf := t.buf, exp := t.exp }

/-- What an instruction leaves of a field. -/
def resultOf {α : Type} (f : State → α) (i : Instr) (s : State) : Option α := (nextOf (exec i s)).map f

/-- The message of a frame in the default layout. -/
def messageOf (bytes : List Byte) : Option Message := (decodeFrame defaultLayout bytes).toOption

/-- V-SRC1 (95_test_vectors.md S6), the buffered bytes. -/
def frameSrc1 : List Byte :=
  [0x03, 0x30, 0x02, 0x0F, 0x00, 0xFB, 0x29, 0xB3, 0x02, 0x08, 0x5A, 0x62, 0x02, 0x7C, 0x3D, 0x5B, 0xFB, 0xC8, 0x00, 0x46]

/-- V-M2. -/
def frameM2 : List Byte :=
  [0x03, 0x32, 0x01, 0x18, 0x0B, 0x09, 0x0C, 0x22, 0x38, 0x12, 0x80, 0x02, 0x33, 0x01, 0xC0, 0x01, 0xA9, 0x06]

/-- V-M3. -/
def frameM3 : List Byte :=
  [0x03, 0x32, 0x03, 0xFB, 0x29, 0xB3, 0x02, 0x24, 0x09, 0x18, 0x0B, 0x09, 0x0C, 0x22, 0x38, 0x12, 0x1E]

/-- V-M4. -/
def frameM4 : List Byte :=
  [0x03, 0x31, 0x01, 0xC5, 0x0B, 0x5B, 0xB0, 0x05, 0x2B, 0xB6, 0x60, 0x0B, 0xEE, 0xD2, 0x04, 0x00, 0x40, 0xDC, 0x05, 0xBA]

/-- V-M5a. -/
def frameM5a : List Byte := [0x03, 0x33, 0x01, 0x03, 0x11, 0x05, 0x2A, 0x5A, 0x2D, 0x0A, 0xF5]

/-- V-F11a, an unknown identifier. -/
def frameF11a : List Byte := [0x03, 0x40, 0x07, 0x01, 0x02, 0x03, 0xB0]

/-- The operands of V-SRC1. -/
def fieldsSrc1 : FastfixFields :=
  { status := { pos := true, alt := true, hdg := true, spd := true }, age := 0, tow := 45296123, lat := 0x02625A08,
    lon := 0xFB5B3D7C, alt := 200 }

/-- The calendar of V-M2 and V-M3. -/
def calendarM2 : Calendar :=
  { year := 24, month := 11, day := 9, hour := 12, minute := 34, second := 56, offset := 18 }

/-- The operands of V-M2. -/
def fieldsM2 : UtcconstFields := { cal := calendarM2, pdop := 640, hdop := 307, vdop := 448, vis := 9 }

/-- The operands of V-M3. -/
def fieldsM3 : UtctimeFields := { tow := 45296123, week := 2340, cal := calendarM2 }

/-- The operands of V-M4. -/
def fieldsM4 : GpsfixFields :=
  { fixSrc := 5, altHold := 3, status := { pos := true, alt := true, hdg := false, spd := true }, lat := 0x2B05B05B,
    lon := 0xEE0B60B6, alt := 1234, hdg := 0x4000, spd := 1500 }

/-- The operands of a channel message with payload `[index, 07, 0F, 1E, 0A, 14, 0E]` (95_test_vectors.md 2.7). -/
def fieldsM5 (index : Byte) : ChanstatFields :=
  { index := index, prn := 7, visible := true, hasTracked := true, tracking := true, meetsMask := true, snr := 30,
    az := 10, el := 20, alm := 2, eph := 3 }

/-- The operands of V-M5a. -/
def fieldsM5a : ChanstatFields :=
  { index := 3, prn := 17, visible := true, hasTracked := false, tracking := true, meetsMask := false, snr := 42,
    az := 90, el := 45, alm := 2, eph := 2 }

/-! ## Well-formed instructions and configurations -/

theorem test_wf_refuses_special_data :
    (Instr.data 0x80).wf = false ∧ (Instr.data 0x81).wf = false ∧ (Instr.data 0x82).wf = false ∧
      (Instr.data 0x7F).wf = true ∧ (Instr.data 0x83).wf = true := by decide

theorem test_wf_refuses_wide_year :
    (Instr.utcconst 3 { fieldsM2 with cal := { calendarM2 with year := 256 } }).wf = false ∧
      (Instr.utctime 3 { fieldsM3 with cal := { calendarM2 with year := 256 } }).wf = false ∧
      (Instr.utctime 3 { fieldsM3 with cal := { calendarM2 with year := 255 } }).wf = true := by decide

theorem test_wf_refuses_wide_azimuth :
    (Instr.chanstat 3 { fieldsM5a with az := 256 }).wf = false ∧ (Instr.chanstat 3 fieldsM5a).wf = true := by decide

theorem test_wf_refuses_dispatched_unknown :
    (Instr.unknown 3 0x3002).wf = false ∧ (Instr.unknown 3 0x3101).wf = false ∧ (Instr.unknown 3 0x3201).wf = false ∧
      (Instr.unknown 3 0x3203).wf = false ∧ (Instr.unknown 3 0x3301).wf = false ∧
      (Instr.unknown 3 0x4007).wf = true := by decide

theorem test_config_default_wf : defaultConfig.wf = true := by decide

theorem test_config_refuses_small_buffer :
    { defaultConfig with bufMax := 3, lenTable := [] }.wf = false ∧
      { defaultConfig with bufMax := 4, lenTable := [] }.wf = true := by decide

theorem test_config_refuses_short_length :
    { defaultConfig with lenTable := [(0x3401, 3)] }.wf = false ∧
      { defaultConfig with lenTable := [(0x3401, 4)] }.wf = true := by decide

theorem test_config_refuses_length_above_buffer :
    { defaultConfig with lenTable := [(0x3401, 257)] }.wf = false ∧
      { defaultConfig with lenTable := [(0x3401, 256)] }.wf = true := by decide

theorem test_config_refuses_two_lengths :
    { defaultConfig with lenTable := [(0x3401, 7), (0x3401, 8)] }.wf = false := by decide

/-- A configuration with other offsets for `FASTFIX`. -/
def withFastfix (l : FastfixLayout) : Config :=
  { defaultConfig with layout := { defaultLayout with fastfix := l } }

theorem test_layout_refuses_header_offset :
    (withFastfix { defaultLayout.fastfix with age := ⟨2, 1⟩ }).wf = false ∧
      (withFastfix { defaultLayout.fastfix with age := ⟨3, 1⟩ }).wf = true := by decide

theorem test_layout_refuses_field_beyond_frame :
    (withFastfix { defaultLayout.fastfix with alt := ⟨19, 2⟩ }).wf = false ∧
      (withFastfix { defaultLayout.fastfix with alt := ⟨18, 2⟩ }).wf = true := by decide

/-- R5 bounds offsets only: a one-byte altitude and a two-byte time of week are well-formed. -/
theorem test_layout_accepts_other_widths :
    (withFastfix { defaultLayout.fastfix with alt := ⟨17, 1⟩ }).wf = true ∧
      (withFastfix { defaultLayout.fastfix with tow := ⟨5, 2⟩ }).wf = true := by decide

theorem test_layout_refuses_each_message :
    { defaultConfig with layout := { defaultLayout with
        gpsfix := { defaultLayout.gpsfix with spd := ⟨19, 2⟩ } } }.wf = false ∧
      { defaultConfig with layout := { defaultLayout with
        utcconst := { defaultLayout.utcconst with vis := ⟨18, 1⟩ } } }.wf = false ∧
      { defaultConfig with layout := { defaultLayout with
        utctime := { defaultLayout.utctime with week := ⟨2, 2⟩ } } }.wf = false ∧
      { defaultConfig with layout := { defaultLayout with
        chanstat := { defaultLayout.chanstat with el := ⟨11, 1⟩ } } }.wf = false := by decide

theorem test_ill_formed_config_refused :
    refusalOf (step { waiting 0x81 0 with config := { defaultConfig with bufMax := 3 } }) = some .illFormedConfig := by
  decide

/-! ## Decoding of words written out from 30_encoding.md -/

/-- R45: 10000001, 10000000, 10000010, and two data bytes beside them. -/
theorem test_decode_byte_classes :
    decodeByte 0b10000001 = .sync ∧ decodeByte 0b10000000 = .esc ∧ decodeByte 0b10000010 = .endByte ∧
      decodeByte 0b01111111 = .data 0x7F ∧ decodeByte 0b10000011 = .data 0x83 := by decide

theorem test_decode_fastfix : messageOf frameSrc1 = some (.fastfix 0x03 fieldsSrc1) := by decide
theorem test_decode_gpsfix : messageOf frameM4 = some (.gpsfix 0x03 fieldsM4) := by decide
theorem test_decode_utcconst : messageOf frameM2 = some (.utcconst 0x03 fieldsM2) := by decide
theorem test_decode_utctime : messageOf frameM3 = some (.utctime 0x03 fieldsM3) := by decide
theorem test_decode_chanstat : messageOf frameM5a = some (.chanstat 0x03 fieldsM5a) := by decide
theorem test_decode_unknown : messageOf frameF11a = some (.unknown 0x03 0x4007) := by decide

/-- R54: bit 7 to 4 of the status byte are ignored (V-M1f, status A5). -/
theorem test_decode_status_bits :
    defaultValidityBits.extract 0xA5 = { pos := true, alt := false, hdg := true, spd := false } := by decide

/-- R51(b), (c): a narrow field is zero-extended; a wide one whose value fits is stored as it is. -/
theorem test_field_widths :
    (FieldSpec.mk 1 1).read [0x11, 0xC8, 0x00, 0x00, 0x00] 16 = some 0x00C8 ∧
      (FieldSpec.mk 1 4).read [0x11, 0xC8, 0x00, 0x00, 0x00] 16 = some 0x00C8 ∧
      (FieldSpec.mk 1 2).readByte [0x11, 0xC8, 0xFF] = some 0xC8 := by decide

theorem test_decode_refuses_two_bytes : messageOf [0x03, 0x30] = none := by decide
theorem test_decode_refuses_missing_field : messageOf [0x03, 0x33, 0x01, 0x00] = none := by decide

theorem test_encode_fastfix : encode (.fastfix 0x03 fieldsSrc1) = frameSrc1 := by decide
theorem test_encode_gpsfix : encode (.gpsfix 0x03 fieldsM4) = frameM4 := by decide
theorem test_encode_utctime : encode (.utctime 0x03 fieldsM3) = frameM3 := by decide
theorem test_encode_chanstat : encode (.chanstat 0x03 fieldsM5a) = frameM5a := by decide

/-- V-M2 with its one stuffed byte. -/
theorem test_stuff_m2 :
    wireOf frameM2 =
      [0x81, 0x03, 0x32, 0x01, 0x18, 0x0B, 0x09, 0x0C, 0x22, 0x38, 0x12, 0x80, 0x00, 0x02, 0x33, 0x01, 0xC0, 0x01, 0xA9,
        0x06, 0x82] := by decide

theorem test_unstuff : unstuff [0x80, 0x45, 0x80, 0x80, 0x80, 0x82, 0x33] = [0xC5, 0x80, 0x82, 0x33] := by decide

theorem test_table_words :
    decodeTableWord 8 0x81 = some .sync ∧ decodeTableWord 8 0x00 = some (.data 0) ∧
      decodeTableWord 24 0x004007 = some (.unknown 0 0x4007) ∧ decodeTableWord 16 0 = none := by decide

/-- A table word runs as the first instruction after reset. -/
theorem test_table_word_runs :
    (nextOf (step (State.reset.withFetchWord 8 0x81))).map (·.st) = some .inFrame ∧
      ((nextOf (step (State.reset.withFetchWord 24 0x003301))).map fun t => t.channel[0].isSome) = some true := by decide

/-! ## The framing machine (95_test_vectors.md 2.1) -/

theorem test_idle_ignores :
    after (waiting 0x80 0) = some ⟨[], .idle, false, [], .undetermined⟩ ∧
      after (waiting 0x82 0) = some ⟨[], .idle, false, [], .undetermined⟩ := by decide

theorem test_sync_starts : after (waiting 0x81 0) = some ⟨[], .inFrame, false, [], .undetermined⟩ := by decide

/-- The table of 00_scope.md R4: with `STORE_SYNC = 1` the sync byte is the first buffered byte. -/
theorem test_sync_stored :
    after { waiting 0x81 0 with config := { defaultConfig with storeSync := true } } =
      some ⟨[], .inFrame, false, [0x81], .undetermined⟩ := by decide

/-- V-F6. -/
theorem test_sync_in_frame_is_data :
    after (collecting [0x03, 0x81] 0x81) = some ⟨[], .inFrame, false, [0x03, 0x81, 0x81], .unknown⟩ := by decide

/-- V-F4. -/
theorem test_esc_sets_flag : after (collecting [0x03] 0x80) = some ⟨[], .inFrame, true, [0x03], .undetermined⟩ := by
  decide

/-- V-F9. -/
theorem test_esc_on_full_buffer_faults :
    after (collecting frameM5a 0x80) =
      some ⟨[.fault (.framingFault 0x3301 11)], .idle, false, [], .undetermined⟩ := by decide

/-- V-F7a. -/
theorem test_data_looks_up :
    after (collecting [0x03, 0x33] 0x01) = some ⟨[], .inFrame, false, [0x03, 0x33, 0x01], .known 11⟩ := by decide

/-- V-F12, BUF_MAX = 11. -/
theorem test_data_overflows :
    after { collecting [0x03, 0x40, 0x07, 0x11, 0x11, 0x11, 0x11, 0x11, 0x11, 0x11, 0x11] 0x22 with
        config := { defaultConfig with bufMax := 11, lenTable := [] } } =
      some ⟨[.fault (.bufferOverflow 11)], .idle, false, [], .undetermined⟩ := by decide

/-- P1 inputs 19 and 27: escaped bytes, whatever their class (V-F5). -/
theorem test_escaped_bytes :
    after (escaping [0x03] 0x00) = some ⟨[], .inFrame, false, [0x03, 0x80], .undetermined⟩ ∧
      after (escaping [0x03] 0x82) = some ⟨[], .inFrame, false, [0x03, 0x82], .undetermined⟩ ∧
      after (escaping [0x03] 0x45) = some ⟨[], .inFrame, false, [0x03, 0xC5], .undetermined⟩ := by decide

/-- V-F10a and V-F10c. -/
theorem test_end_short :
    after (collected []) = some ⟨[.fault (.shortFrame 0)], .idle, false, [], .undetermined⟩ ∧
      after (collected [0x03, 0x33, 0x01, 0x03, 0x11, 0x05]) =
        some ⟨[.fault (.shortFrame 6)], .idle, false, [], .undetermined⟩ := by decide

/-- V-F11c. -/
theorem test_end_scanned :
    after (collected [0x03, 0x40, 0x07]) =
      some ⟨[.frame [0x03, 0x40, 0x07] false true, .fault (.checksumMismatch 0x4007), .drop .unknownMessageId 0x4007],
        .idle, false, [], .undetermined⟩ := by decide

/-- V-F14: the failure of the source, and no effect of a later byte. -/
theorem test_source_failure :
    ((nextOf (step { State.reset with inputs := [.sourceFail] })).map fun t => (t.events, t.fatal)) =
        some ([.fault .sourceUnavailable], true) ∧
      after { waiting 0x81 0 with fatal := true } = some ⟨[], .idle, false, [], .undetermined⟩ := by decide

/-! ## The decode routines (95_test_vectors.md 2.2 to 2.7) -/

/-- V-SRC1, from END on. -/
theorem test_fastfix_events :
    after (collected frameSrc1) =
      some ⟨[.frame frameSrc1 true false, .dispatch .fastfix true [.rmc, .vtg]], .idle, false, [], .undetermined⟩ := by
  decide

theorem test_fastfix_position :
    resultOf (·.position) (.fastfix 0x03 fieldsSrc1) State.reset =
      some { Position.reset defaultInit with
        posValid := true, altValid := true, hdgValid := true, spdValid := true, tow := 45296123, latRaw := 0x02625A08,
        lonRaw := 0xFB5B3D7C, alt := 200 } := by decide

theorem test_gpsfix_events :
    resultOf (·.events) (.gpsfix 0x03 fieldsM4) State.reset = some [.dispatch .gpsfix true [.gsa, .gga]] := by decide

theorem test_gpsfix_position :
    resultOf (·.position) (.gpsfix 0x03 fieldsM4) State.reset =
      some { Position.reset defaultInit with
        fixSrc := 5, altHold := 3, posValid := true, altValid := true, spdValid := true, latRaw := 721793115,
        lonRaw := 0xEE0B60B6, alt := 1234, hdgRaw := 0x4000, spd := 1500 } := by decide

theorem test_utcconst_time :
    resultOf (·.gpsTime) (.utcconst 0x03 fieldsM2) State.reset =
      some { GpsTime.reset defaultInit with
        year := 24, month := 11, day := 9, hour := 12, minute := 34, second := 56, utcOff := 18 } := by decide

theorem test_utcconst_position :
    resultOf (·.position) (.utcconst 0x03 fieldsM2) State.reset =
      some { Position.reset defaultInit with pdopRaw := 640, hdopRaw := 307, vdopRaw := 448, visCount := 9 } := by decide

theorem test_utctime_time :
    resultOf (·.gpsTime) (.utctime 0x03 fieldsM3) State.reset =
      some { year := 24, month := 11, day := 9, hour := 12, minute := 34, second := 56, utcOff := 18, week := 2340,
             tow := 45296123 } := by decide

theorem test_utctime_position :
    resultOf (·.position) (.utctime 0x03 fieldsM3) State.reset =
      some { Position.reset defaultInit with tow := 45296123 } := by decide

/-- V-M5a: the slot, the count, the throttle register, the events. -/
theorem test_chanstat_slot :
    resultOf (fun t => (t.channel[3], t.channel[2])) (.chanstat 0x03 fieldsM5a) State.reset =
        some (some { prn := 17, visible := true, hasTracked := false, tracking := true, meetsMask := false, snr := 42,
                     az := 90, el := 45, alm := 2, eph := 2 }, none) ∧
      resultOf (fun t => (t.position.trkCount, t.lastGsv, t.events)) (.chanstat 0x03 fieldsM5a) State.reset =
        some (1, some 0, [.dispatch .chanstat true [.gsv 1 1 [3]]]) := by decide

/-- V-M5c: the index 12 is reported and clamped. -/
theorem test_chanstat_clamp :
    resultOf (fun t => (t.channel[11].map ChannelRec.prn, t.events)) (.chanstat 0x03 (fieldsM5 12)) State.reset =
      some (some 7, [.fault (.channelIndexOutOfRange 12), .dispatch .chanstat true [.gsv 1 1 [11]]]) := by decide

/-- The period is reached at exactly 5000, not at 4999, and a clock that went back is not due (41_dispatch.md R94). -/
theorem test_throttle_period :
    throttleDue (some 1000) 5000 5999 = false ∧ throttleDue (some 1000) 5000 6000 = true ∧
      throttleDue (some 1000) 0 999 = false ∧ throttleDue none 5000 0 = true := by decide

/-- Five visible slots make two requests, of four and of one (42_encoder_requests.md R107). -/
theorem test_gsv_requests :
    gsvRequests [0, 2, 5, 7, 11] = [.gsv 1 2 [0, 2, 5, 7], .gsv 2 2 [11]] := by decide

theorem test_unknown_drops :
    resultOf (·.events) (.unknown 0x03 0x4007) State.reset = some [.drop .unknownMessageId 0x4007] := by decide

/-- V-F13b: strict mode drops a frame of bad sum. -/
theorem test_strict_drop :
    after { collected [0x03, 0x33, 0x01, 0x03, 0x11, 0x05, 0x2A, 0x5A, 0x2D, 0x0A, 0xF6] with
        config := { defaultConfig with dispatchInvalid := false } } =
      some ⟨[.frame [0x03, 0x33, 0x01, 0x03, 0x11, 0x05, 0x2A, 0x5A, 0x2D, 0x0A, 0xF6] false false,
          .fault (.checksumMismatch 0x3301), .drop .checksumMismatch 0x3301], .idle, false, [], .undetermined⟩ := by decide

/-- The output ports of V-M5c's dispatch (70_reset_and_hazards.md R143). -/
theorem test_ports :
    resultOf State.ports (.chanstat 0x03 (fieldsM5 12)) State.reset =
      some { Ports.idle with
        fault0 := { valid := true, cause := 4, info := 12 }, dispValid := true, dispMsg := 4, dispDue := true,
        reqMask := 0b000100, gsvN := 1, gsvVis := 0x800 } := by decide

/-- A channel message that is not due still shows the visible slots. -/
theorem test_ports_not_due :
    resultOf (fun t => (t.ports.dispDue, t.ports.gsvN, t.ports.gsvVis)) (.chanstat 0x03 fieldsM5a)
        { State.reset with lastGsv := some 1 } = some (false, 0, 0x008) := by decide

/-! ## Witnesses: the hypotheses of each obligation are met -/

/-- V-M5a collected, END waiting. -/
def doneM5a : State := collected frameM5a

/-- V-F11a collected, END waiting: a scanned frame. -/
def doneF11a : State := collected frameF11a

/-- The default configuration with the sync byte stored. -/
def syncConfig : Config := { defaultConfig with storeSync := true }

theorem test_invariant_of_known_frame : MachineInv doneM5a := by
  constructor
  · decide
  · intro h; cases h
  · decide
  · decide
  · intro L h; cases h; decide
  · intro L h hl; rfl
  · intro h; cases h
  · intro h; cases h
  · decide
  · intro i _ h; cases h; decide

theorem test_invariant_of_scanned_frame : MachineInv doneF11a := by
  constructor
  · decide
  · intro h; cases h
  · decide
  · decide
  · intro L h; cases h
  · intro L h hl; rfl
  · intro h; cases h
  · intro h; cases h
  · decide
  · intro i _ h; cases h; decide

/-- StepRunsDecodedByte. -/
theorem test_witness_step_runs :
    (waiting 0x81 7).config.wf = true ∧ (waiting 0x81 7).fatal = false ∧ (waiting 0x81 7).inputs = .byte 0x81 7 :: [] := by
  decide

/-- NoInputNoChange. -/
theorem test_witness_no_input : State.reset.config.wf = true ∧ State.reset.inputs = [] := by decide

/-- WellFormedConfigBounds. -/
theorem test_witness_config_bounds : defaultConfig.wf = true ∧ defaultConfig.lengthOf 0x3301 = some 11 := by decide

/-- FramesOfTableLengthDecode. -/
theorem test_witness_table_length :
    defaultConfig.wf = true ∧ memReadBE frameM5a 1 = some 0x3301 ∧
      defaultConfig.lengthOf 0x3301 = some frameM5a.length := by decide

/-- InvHoldsAfterReset, for a configuration other than the default. -/
theorem test_witness_reset_inv : syncConfig.wf = true := by decide

/-- StepKeepsInv, StepTotalUnderInv, ConfigNeverWritten, StepEventOrder: a state of the invariant whose step answers. -/
theorem test_witness_step_answers : MachineInv doneM5a ∧ (nextOf (step doneM5a)).isSome = true :=
  ⟨test_invariant_of_known_frame, by decide⟩

/-- FatalBitIsSticky, second clause from both sides. -/
theorem test_witness_fatal_set :
    ((nextOf (step { State.reset with inputs := [.sourceFail] })).map State.fatal) = some true ∧
      ((nextOf (step (waiting 0x81 0))).map State.fatal) = some false := by decide

/-- FatalBitIsSticky, third clause. -/
theorem test_witness_fatal_ignores :
    State.reset.config.wf = true ∧ ({ waiting 0x81 0 with fatal := true } : State).fatal = true ∧
      ({ waiting 0x81 0 with fatal := true } : State).inputs = .byte 0x81 0 :: [] := by decide

/-- SourceFailureIsFatal, with a second failure waiting. -/
theorem test_witness_source_failure :
    ({ State.reset with inputs := [.sourceFail, .sourceFail] } : State).config.wf = true ∧
      ({ State.reset with inputs := [.sourceFail, .sourceFail] } : State).fatal = false ∧
      ({ State.reset with inputs := [.sourceFail, .sourceFail] } : State).inputs = .sourceFail :: [.sourceFail] := by
  decide

/-- ByteClassesByFullValue: one value of each class. -/
theorem test_witness_byte_classes :
    decodeByte 0x81 = .sync ∧ decodeByte 0x80 = .esc ∧ decodeByte 0x82 = .endByte ∧ decodeByte 0x83 = .data 0x83 := by
  decide

/-- SyncStartsFrame, both values of `STORE_SYNC`. -/
theorem test_witness_sync :
    State.reset.config.wf = true ∧ State.reset.st = .idle ∧ State.reset.config.storeSync = false ∧
      (State.resetWith syncConfig).config.wf = true ∧ (State.resetWith syncConfig).st = .idle ∧
      (State.resetWith syncConfig).config.storeSync = true := by decide

/-- IdleIgnoresOtherBytes. -/
theorem test_witness_idle : State.reset.st = .idle ∧ (0x80 : Byte) ≠ 0x81 ∧ (0x82 : Byte) ≠ 0x81 := by decide

/-- FullBufferFramingFault, with data and with a sync byte. -/
theorem test_witness_full_buffer :
    doneM5a.st = .inFrame ∧ doneM5a.exp = .known 11 ∧ doneM5a.buf.length = 11 ∧ (0x55 : Byte) ≠ 0x82 ∧
      (0x81 : Byte) ≠ 0x82 ∧ memReadBE doneM5a.buf 1 = some 0x3301 := by decide

/-- EscapedByteAppended: below the expected length, and an END byte at it. -/
theorem test_witness_escaped :
    ((escaping [0x03] 0x45).st = .inFrame ∧ (escaping [0x03] 0x45).esc = true ∧
      ¬((escaping [0x03] 0x45).exp = .known (escaping [0x03] 0x45).buf.length ∧ (0x45 : Byte) ≠ 0x82)) ∧
    ((escaping frameM5a 0x82).st = .inFrame ∧ (escaping frameM5a 0x82).esc = true ∧
      ¬((escaping frameM5a 0x82).exp = .known (escaping frameM5a 0x82).buf.length ∧ (0x82 : Byte) ≠ 0x82)) := by decide

/-- EscSetsFlag, one byte below the expected length. -/
theorem test_witness_esc :
    (collected (frameM5a.take 10)).st = .inFrame ∧ (collected (frameM5a.take 10)).esc = false ∧
      (collected (frameM5a.take 10)).exp ≠ .known (collected (frameM5a.take 10)).buf.length := by decide

/-- EndCompletesFrame, with a known length. -/
theorem test_witness_end_known :
    MachineInv doneM5a ∧ doneM5a.st = .inFrame ∧ doneM5a.esc = false ∧ 3 ≤ doneM5a.buf.length ∧
      (doneM5a.exp = .unknown ∨ doneM5a.exp = .known doneM5a.buf.length) :=
  ⟨test_invariant_of_known_frame, by decide⟩

/-- EndCompletesFrame, with an unknown length. -/
theorem test_witness_end_unknown :
    MachineInv doneF11a ∧ doneF11a.st = .inFrame ∧ doneF11a.esc = false ∧ 3 ≤ doneF11a.buf.length ∧
      doneF11a.exp = .unknown :=
  ⟨test_invariant_of_scanned_frame, by decide⟩

/-- EndShortFrame: two bytes, and one byte below the expected length. -/
theorem test_witness_end_short :
    ((collected [0x03, 0x30]).st = .inFrame ∧ (collected [0x03, 0x30]).esc = false ∧
      (collected [0x03, 0x30]).buf.length < 3 ∧ (collected [0x03, 0x30]).exp = .undetermined) ∧
    ((collected (frameM5a.take 10)).st = .inFrame ∧ (collected (frameM5a.take 10)).esc = false ∧
      (collected (frameM5a.take 10)).exp = .known 11 ∧ (collected (frameM5a.take 10)).buf.length < 11) := by decide

/-- DataByteAppended, for data and for an unescaped 0x81. -/
theorem test_witness_data :
    (collected [0x03, 0x33]).st = .inFrame ∧ (collected [0x03, 0x33]).esc = false ∧
      (collected [0x03, 0x33]).exp ≠ .known (collected [0x03, 0x33]).buf.length ∧
      (0x01 : Byte) ≠ 0x80 ∧ (0x01 : Byte) ≠ 0x82 ∧ (0x81 : Byte) ≠ 0x80 ∧ (0x81 : Byte) ≠ 0x82 := by decide

/-- AppendStoresOverflowsOrLooksUp: the full buffer, the third byte, another byte. -/
theorem test_witness_append :
    ({ collected frameM5a with config := { defaultConfig with bufMax := 11 } } : State).buf.length = 11 ∧
      (collected [0x03, 0x33]).buf.length + 1 = 3 ∧ (collected [0x03]).buf.length + 1 ≠ 3 := by decide

/-- ChannelIndexClamped, at both sides of the bound and at the ends of the range. -/
theorem test_witness_clamp :
    ¬(11 < (11 : Byte).toNat) ∧ (11 : Byte).toNat ≤ 11 ∧ 11 < (12 : Byte).toNat ∧ (0 : Byte).toNat ≤ 11 ∧
      11 < (255 : Byte).toNat := by decide

/-- ChanstatWritesOneSlot: the index at both sides of the clamp, the throttle due and not due. -/
theorem test_witness_chanstat :
    (fieldsM5 11).index.toNat ≤ 11 ∧ 11 < (fieldsM5 12).index.toNat ∧
      throttleDue State.reset.lastGsv State.reset.config.throttleTicks State.reset.now = true ∧
      throttleDue (some 1) State.reset.config.throttleTicks State.reset.now = false := by decide

/-- ThrottleDecision, the clock behind the last report. -/
theorem test_witness_clock_behind : (4 : Nat) < 5 ∧ throttleDue (some 5) 0 4 = false := by decide

/-- GsvRequestsGroupByFour: a first and a last request, and a full last one. -/
theorem test_witness_gsv :
    (([0, 2, 5, 7, 11] : List SlotIndex).length + 3) / 4 = 2 ∧
      (([0, 1, 2, 3] : List SlotIndex).length + 3) / 4 = 1 := by decide

/-- VisibleSlotsAscending, TrackedCountCountsTracking: a populated slot. -/
theorem test_witness_slots :
    (resultOf (fun t => (visibleSlots t.channel, trackedCount t.channel)) (.chanstat 0x03 fieldsM5a) State.reset) =
      some ([3], 1) := by decide

/-- The reset state in strict mode. -/
def strictReset : State := State.resetWith { defaultConfig with dispatchInvalid := false }

/-- A configuration with one more identifier, as in V-F16. -/
def extendedConfig : Config := { defaultConfig with lenTable := (0x3401, 7) :: defaultLenTable }

/-- DispatchGates: one frame for each of the first two clauses, and for the third a dispatched identifier. -/
theorem test_witness_gates :
    memReadBE frameM5a 1 = some 0x3301 ∧ ({ bytes := frameM5a, valid := true, scanned := true } : Frame).scanned = true ∧
      ({ bytes := frameM5a, valid := false, scanned := false } : Frame).valid = false ∧
      strictReset.config.dispatchInvalid = false ∧ State.reset.config.dispatchInvalid = true ∧
      State.reset.config.wf = true ∧ State.reset.config.lengthOf 0x3301 = some frameM5a.length := by decide

/-- DispatchGates: an identifier of known length without a routine. -/
theorem test_witness_gates_unknown :
    extendedConfig.wf = true ∧ memReadBE [0x01, 0x34, 0x01, 0xDE, 0xAD, 0xBE, 0x81] 1 = some 0x3401 ∧
      extendedConfig.lengthOf 0x3401 = some 7 ∧ (0x3401 : Ident) ∉ dispatchedIdents := by decide

/-- ChanstatFrameOperands: a slot for an index at each side of the clamp. -/
theorem test_witness_chanstat_slot :
    (11 : SlotIndex).val = min (11 : Byte).toNat 11 ∧ (11 : SlotIndex).val = min (255 : Byte).toNat 11 ∧
      (0 : SlotIndex).val = min (0 : Byte).toNat 11 := by decide

/-- MessageSelectedByIdentifier: an unknown and a dispatched identifier. -/
theorem test_witness_selected :
    messageOf frameF11a = some (.unknown 0x03 0x4007) ∧ (0x4007 : Ident) ∉ dispatchedIdents ∧
      (messageOf frameM4).isSome = true ∧ (0x3101 : Ident) ∈ dispatchedIdents := by decide

/-- FieldReadsLittleEndian: a read that ends with the bytes, and one that leaves them. -/
theorem test_witness_field_reads :
    memRead [1, 2, 3, 4] 0 4 = some 0x04030201 ∧ memRead [1, 2, 3, 4] 1 4 = none ∧
      memReadBE [0, 0x30, 0x02] 1 = some 0x3002 ∧ memReadBE [0, 0x30] 1 = none := by decide

/-- DecodeEncodeAgree: instructions of both levels, operands at the ends of their ranges. -/
theorem test_witness_round_trip :
    (Instr.data 0xFF).wf = true ∧ (Instr.chanstat 0 { fieldsM5 0xFF with az := 255 }).wf = true ∧
      (Instr.unknown 0xFF 0x3000).wf = true := by decide

/-- StuffingRoundTrips: a canonical list and one that is not. -/
theorem test_witness_canonical : canonical [0x80, 0x02, 0x33] = true ∧ canonical [0x80, 0x45] = false := by decide

/-- V-M5a on the wire up to END, with a clock value for each byte, then END at clock value 40. -/
def wireM5a : State :=
  { State.reset with
    inputs := List.zipWith .byte (0x81 :: stuff frameM5a) [9, 9, 7, 12, 13, 14, 15, 15, 16, 18, 20, 33] ++ [.byte 0x82 40] }

/-- WireFrameIsDelivered: a known length, `STORE_SYNC = 0`, clock values that differ and do not always rise. -/
theorem test_witness_wire_known :
    wireM5a.config.wf = true ∧ wireM5a.st = .idle ∧ wireM5a.fatal = false ∧ memReadBE frameM5a 1 = some 0x3301 ∧
      frameM5a.length ≤ wireM5a.config.bufMax ∧ wireM5a.config.lengthOf 0x3301 = some frameM5a.length ∧
      wireM5a.config.storeSync = false ∧
      [9, 9, 7, 12, 13, 14, 15, 15, 16, 18, 20, 33].length = (0x81 :: stuff frameM5a).length ∧
      wireM5a.inputs = List.zipWith .byte (0x81 :: stuff frameM5a) [9, 9, 7, 12, 13, 14, 15, 15, 16, 18, 20, 33] ++
        .byte 0x82 40 :: [] := by decide

/-- The frame 81 40 07 82 on the wire with `STORE_SYNC = 1`: its first byte is the sync marker, its last is stuffed. -/
def wireUnknown : State :=
  { State.resetWith syncConfig with
    inputs := List.zipWith .byte [0x81, 0x40, 0x07, 0x80, 0x02] [1, 2, 3, 5, 8] ++ [.byte 0x82 13] }

/-- WireFrameIsDelivered: an unknown length, `STORE_SYNC = 1`, a byte to stuff. -/
theorem test_witness_wire_unknown :
    wireUnknown.config.wf = true ∧ wireUnknown.st = .idle ∧ wireUnknown.fatal = false ∧
      wireUnknown.config.storeSync = true ∧ memReadBE [0x81, 0x40, 0x07, 0x82] 1 = some 0x4007 ∧
      wireUnknown.config.lengthOf 0x4007 = none ∧ ([0x81, 0x40, 0x07, 0x82] : List Byte).head? = some 0x81 ∧
      0x81 :: stuff (([0x81, 0x40, 0x07, 0x82] : List Byte).drop 1) = [0x81, 0x40, 0x07, 0x80, 0x02] ∧
      ([0x81, 0x40, 0x07, 0x82] : List Byte).length ≤ wireUnknown.config.bufMax := by decide

/-- KnownFrameEndsWithinBound: a complete frame that needs one byte more. -/
theorem test_witness_frame_ends :
    MachineInv doneM5a ∧ doneM5a.fatal = false ∧ doneM5a.exp = .known 11 ∧
      doneM5a.inputs = [((0x82 : Byte), 0)].map (fun p => .byte p.1 p.2) ∧
      2 * (11 - doneM5a.buf.length) + 1 ≤ [((0x82 : Byte), 0)].length :=
  ⟨test_invariant_of_known_frame, by decide⟩

/-- NavChangesOnlyAtCompletion: a step that changes Navigation State and `last_gsv`. -/
theorem test_witness_nav_changes :
    ((nextOf (step doneM5a)).map fun t => decide (t.nav ≠ doneM5a.nav ∧ t.lastGsv ≠ doneM5a.lastGsv)) = some true := by
  decide

/-- EmittedFrameLengths, known length. -/
theorem test_witness_emitted_known :
    MachineInv doneM5a ∧
      ((nextOf (step doneM5a)).map fun t => decide (Event.frame frameM5a true false ∈ t.events)) = some true :=
  ⟨test_invariant_of_known_frame, by decide⟩

/-- EmittedFrameLengths, unknown length. -/
theorem test_witness_emitted_scanned :
    MachineInv doneF11a ∧
      ((nextOf (step doneF11a)).map fun t => decide (Event.frame frameF11a true true ∈ t.events)) = some true :=
  ⟨test_invariant_of_scanned_frame, by decide⟩

/-- ChannelSlotsStayPopulated: a populated slot, and a step that dispatches a channel message for another. -/
theorem test_witness_slot_stays :
    ((resultOf (fun t => placeFrame t frameM5a) (.chanstat 0x03 (fieldsM5 0)) State.reset).bind fun s =>
        (nextOf (step s)).map fun t => (s.channel[0].isSome, t.channel[0].isSome, t.channel[3].isSome)) =
      some (true, true, true) := by decide

/-- ChannelSlotsStayPopulated: the second clause's dispatch with an index beyond the range, clamped to slot 11, and for the
third clause a step that dispatches another message. -/
theorem test_witness_slot_written :
    ((nextOf (step (collected [0x03, 0x33, 0x01, 0x0C, 0x07, 0x0F, 0x1E, 0x0A, 0x14, 0x0E, 0x00]))).map fun t =>
        t.channel[(11 : SlotIndex)]) = some (some (channelRecOf (fieldsM5 12))) ∧
      ((nextOf (step (collected frameSrc1))).map fun t => (t.events, t.channel[(0 : SlotIndex)])) =
        some ([.frame frameSrc1 true false, .dispatch .fastfix true [.rmc, .vtg]], none) := by decide

/-- ClockReadOnlyByChannelDispatch: the completion of a frame that is no channel message. -/
theorem test_witness_clock :
    ((nextOf (step { collected frameSrc1 with inputs := .byte 0x82 4 :: [] })).map fun t => t.events) =
      some [.frame frameSrc1 true false, .dispatch .fastfix true [.rmc, .vtg]] := by decide

/-- MarkIsNotExamined: a frame of known length and a scanned one. -/
theorem test_witness_mark :
    State.reset.config.wf = true ∧ memReadBE (0x03 :: frameM5a.drop 1) 1 = some 0x3301 ∧
      (State.reset.config.lengthOf 0x3301).isSome = true ∧ memReadBE (0x04 :: frameF11a.drop 1) 1 = some 0x4007 := by decide

/-- RepeatedMessageIdempotent: both executions answer. -/
theorem test_witness_repeated :
    ((nextOf (exec (Message.chanstat 0x03 fieldsM5a).toInstr State.reset)).bind fun t =>
        nextOf (exec (Message.chanstat 0x03 fieldsM5a).toInstr { t with now := 5000 })).isSome = true := by decide

/-- InterpretedRegisterRanges: the last age that is a number of seconds. -/
theorem test_witness_age : (253 : Byte).toNat < 254 ∧ ageReading 253 = .seconds 253 := by decide

/-- FieldsOfAnyWidthAssemble: a narrow field, and a field wider than its register whose number fits, each ending with the
bytes. -/
theorem test_witness_any_width :
    3 + 1 ≤ ([0, 0, 0, 0xC8] : List Byte).length ∧ memRead [0, 0, 0, 0xC8] 3 1 = some 0xC8 ∧ 0xC8 < 2 ^ 16 ∧
      1 + 3 ≤ ([0, 0xC8, 0x01, 0x00] : List Byte).length ∧ memRead [0, 0xC8, 0x01, 0x00] 1 3 = some 0x01C8 ∧
      0x01C8 < 2 ^ 16 ∧ (FieldSpec.mk 1 3).off < ([0, 0xC8, 0x01, 0x00] : List Byte).length ∧ 3 < 4 ∧ 4 + 3 < 8 := by
  decide

/-- VisiblePortShowsVisibleSlots: a visible slot, and one that is not. -/
theorem test_witness_visible_port :
    (resultOf (fun t => (t.ports.gsvVis.getLsbD 3, t.ports.gsvVis.getLsbD 4)) (.chanstat 0x03 fieldsM5a) State.reset) =
      some (true, false) := by decide

end Sys2Proof.Tests
end

section
/-!
# Reads of the frame's bytes (`00_scope.md` section 5, `20_memory.md` section 2)

The little-endian field read as a weighted sum of the bytes, the big-endian identifier read as a number, and with them
the obligation O36.
-/
namespace Sys2Proof

/-! ## The little-endian read -/

/-- The first `n` bytes as a number (`20_memory.md` R33); bytes that are not there count as zero. -/
theorem leNat_take_eq_sum (n : Nat) (l : List Byte) :
    leNat (l.take n) = ((List.range n).map fun k => (l.getD k 0).toNat * 2 ^ (8 * k)).sum := by
  induction n generalizing l with
  | zero => rfl
  | succ n ih =>
    cases l with
    | nil => simp [leNat]
    | cons b l =>
      have weight (k : Nat) (x : Byte) : x.toNat * 2 ^ (8 * (k + 1)) = 256 * (x.toNat * 2 ^ (8 * k)) := by ring
      simp [leNat, ih, List.range_succ_eq_map, Function.comp_def, weight, List.sum_map_mul_left]

/-- `MemRead` as the rule gives it (`00_scope.md` R7). -/
theorem memRead_eq_sum (bytes : List Byte) (off n : Nat) :
    memRead bytes off n =
      if off + n ≤ bytes.length then
        some (((List.range n).map fun k => (bytes.getD (off + k) 0).toNat * 2 ^ (8 * k)).sum)
      else none := by
  have getD_drop (k : Nat) : (bytes.drop off).getD k 0 = bytes.getD (off + k) 0 := by simp
  simp only [memRead, leNat_take_eq_sum, getD_drop]

/-! ## The big-endian read -/

/-- The identifier read answers exactly with the two bytes side by side, the byte at the offset on top. -/
theorem memReadBE_eq_some_iff (bytes : List Byte) (off : Nat) (i : Ident) :
    memReadBE bytes off = some i ↔
      ∃ hi lo, bytes[off]? = some hi ∧ bytes[off + 1]? = some lo ∧ i = hi ++ lo := by
  constructor
  · intro h
    unfold memReadBE at h
    split at h
    · next hi lo ehi elo => exact ⟨hi, lo, ehi, elo, (Option.some.inj h).symm⟩
    · cases h
  · rintro ⟨hi, lo, ehi, elo, rfl⟩
    simp [memReadBE, ehi, elo]

/-- Two bytes side by side, as a number (`20_memory.md` R32). -/
theorem toNat_append_byte (hi lo : Byte) : (hi ++ lo).toNat = hi.toNat * 256 + lo.toNat := by
  rw [BitVec.toNat_append, ← Nat.shiftLeft_add_eq_or_of_lt lo.isLt, Nat.shiftLeft_eq]

/-- An identifier is the two bytes side by side exactly when it is their big-endian number. -/
theorem ident_eq_append_iff (i : Ident) (hi lo : Byte) : i = hi ++ lo ↔ i.toNat = hi.toNat * 256 + lo.toNat := by
  rw [← toNat_append_byte, BitVec.toNat_inj]

/-- Settles O36: `leNat`'s recursion unrolled into the weighted sum, and the appended bytes read as a number. -/
theorem fieldReadsLittleEndian : Obligations.FieldReadsLittleEndian := by
  refine ⟨memRead_eq_sum, fun bytes off i => ?_⟩
  simp only [memReadBE_eq_some_iff, ident_eq_append_iff]

end Sys2Proof
end

section
/-!
# The registers after reset (`10_state.md` R22, `70_reset_and_hazards.md` R135)

What each register of the reset state reads, and with it the obligation O6.
-/
namespace Sys2Proof.Machine

section
variable (c : Config)

/-! ## The framing registers and the control registers -/

@[simp] theorem resetWith_config : (State.resetWith c).config = c := rfl
@[simp] theorem resetWith_st : (State.resetWith c).st = .idle := rfl
@[simp] theorem resetWith_esc : (State.resetWith c).esc = false := rfl
@[simp] theorem resetWith_buf : (State.resetWith c).buf = [] := rfl
@[simp] theorem resetWith_exp : (State.resetWith c).exp = .undetermined := rfl
@[simp] theorem resetWith_sum : (State.resetWith c).sum = 0 := rfl
@[simp] theorem resetWith_fatal : (State.resetWith c).fatal = false := rfl
@[simp] theorem resetWith_lastGsv : (State.resetWith c).lastGsv = none := rfl

/-! ## Navigation State -/

@[simp] theorem resetWith_position : (State.resetWith c).position = Position.reset c.init := rfl
@[simp] theorem resetWith_gpsTime : (State.resetWith c).gpsTime = GpsTime.reset c.init := rfl

/-- Every channel slot is absent after reset, the one register that is a file of twelve. -/
@[simp] theorem resetWith_channel_getElem (k : Nat) (hk : k < 12) : (State.resetWith c).channel[k] = none :=
  Vector.getElem_replicate hk

end

/-- Settles O6: the framing and control registers and the twelve slots by their equations above, then each field of
`Position` and `GpsTime` by the reset value of its record. -/
theorem resetRegisterValues : Obligations.ResetRegisterValues := by
  intro c s
  simp [s, Position.reset, GpsTime.reset]

end Sys2Proof.Machine
end

section
/-!
# The byte classes of level 1 and the output codes (`30_encoding.md` R45, R62)

Everything the level-1 decoder can answer, said once, and with it the obligations O13 and O55.
-/
namespace Sys2Proof

/-- The four classes of a wire byte, each with the bytes it is selected by (`30_encoding.md` R45). -/
theorem decodeByte_cases (b : Byte) :
    (b = syncByte ∧ decodeByte b = .sync) ∨ (b = escByte ∧ decodeByte b = .esc) ∨
    (b = endMarker ∧ decodeByte b = .endByte) ∨
    (b ≠ syncByte ∧ b ≠ escByte ∧ b ≠ endMarker ∧ decodeByte b = .data b) := by
  unfold decodeByte
  split_ifs with hsync hesc hend
  · exact .inl ⟨hsync, rfl⟩
  · exact .inr (.inl ⟨hesc, rfl⟩)
  · exact .inr (.inr (.inl ⟨hend, rfl⟩))
  · exact .inr (.inr (.inr ⟨hsync, hesc, hend, rfl⟩))

/-- Settles O13: class by class, the special values exclude each other, and `encode` writes the byte of the class. -/
theorem byteClassesByFullValue : Obligations.ByteClassesByFullValue := by
  intro b
  rcases decodeByte_cases b with ⟨rfl, hd⟩ | ⟨rfl, hd⟩ | ⟨rfl, hd⟩ | ⟨hsync, hesc, hend, hd⟩ <;> rw [hd]
  · simp [encode]
  · simp [encode]
  · simp [encode]
  · simp only [reduceCtorEq, false_iff, true_iff, encode, and_true]
    exact ⟨hsync, hesc, hend, hesc, hsync, hend⟩

/-- Settles O55: each code by the table of `30_encoding.md` R62, for `gsv` whatever its operands. -/
theorem outputCodes : Obligations.OutputCodes := by
  refine ⟨rfl, rfl, rfl, rfl, rfl, rfl, rfl, rfl, rfl, rfl, ?gsv, rfl, rfl, rfl, rfl, rfl, rfl, rfl, rfl⟩
  case gsv => intro k n slots; rfl

end Sys2Proof
end

section
/-!
# The default layout's fields, and the message a header selects (`30_encoding.md` R50, R51, R53)

A field of one, two or four bytes as the bytes at its offset, the last one on top; the groups of fields that several
tables share; and the routine that each of the five identifiers selects, in any layout.
-/
namespace Sys2Proof

/-! ## Reads of one, two and four bytes -/

section
variable (off : Nat) (bytes : List Byte)

/-- A read of at least one byte depends on the bytes from its offset on, and on nothing before them. -/
theorem memRead_eq_drop {n : Nat} (hn : 0 < n) : memRead bytes off n = memRead (bytes.drop off) 0 n := by
  have hlen : off + n ≤ bytes.length ↔ 0 + n ≤ (bytes.drop off).length := by rw [List.length_drop]; omega
  simp only [memRead, hlen, List.drop_zero]

/-- The byte of a bit field, where there is one. -/
theorem FieldSpec.readByte_one : (FieldSpec.mk off 1).readByte bytes = bytes[off]? := by
  by_cases h : off < bytes.length
  · exact FieldSpec.readByte_eq _ bytes h h
  · have hread : memRead bytes off 1 = none := if_neg h
    simp [FieldSpec.readByte, hread, Nat.le_of_not_lt h]

/-- One byte in an 8-bit register is the byte. -/
theorem FieldSpec.read_one : (FieldSpec.mk off 1).read bytes 8 = bytes[off]? := by
  rw [FieldSpec.read_of_narrow _ _ (by simp), memRead_eq_drop off bytes (by simp), ← List.head?_drop]
  rcases bytes.drop off with _ | ⟨a, l⟩ <;> simp [memRead, ofNat_leNat_one]

/-- One byte in a 16-bit register is zero-extended (`30_encoding.md` R51(c)). -/
theorem FieldSpec.read_one_wide : (FieldSpec.mk off 1).read bytes 16 = bytes[off]?.map (0#8 ++ ·) := by
  rw [FieldSpec.read_of_narrow _ _ (by simp), memRead_eq_drop off bytes (by simp), ← List.head?_drop]
  rcases bytes.drop off with _ | ⟨a, l⟩ <;> simp [memRead, ofNat_leNat_one_wide]

/-- Two bytes, the second on top; no value where one of them is missing. -/
theorem FieldSpec.read_two :
    (FieldSpec.mk off 2).read bytes 16 = do
      let b0 ← bytes[off]?
      let b1 ← bytes[off + 1]?
      return b1 ++ b0 := by
  rw [FieldSpec.read_of_narrow _ _ (by simp), memRead_eq_drop off bytes (by simp), ← List.head?_drop,
    ← List.getElem?_drop]
  rcases bytes.drop off with _ | ⟨a, _ | ⟨b, l⟩⟩ <;> simp [memRead, ofNat_leNat_two]

/-- Four bytes, the last on top; no value where one of them is missing. -/
theorem FieldSpec.read_four :
    (FieldSpec.mk off 4).read bytes 32 = do
      let b0 ← bytes[off]?
      let b1 ← bytes[off + 1]?
      let b2 ← bytes[off + 2]?
      let b3 ← bytes[off + 3]?
      return b3 ++ b2 ++ b1 ++ b0 := by
  rw [FieldSpec.read_of_narrow _ _ (by simp), memRead_eq_drop off bytes (by simp), ← List.head?_drop,
    ← List.getElem?_drop (j := 1), ← List.getElem?_drop (j := 2), ← List.getElem?_drop (j := 3)]
  rcases bytes.drop off with _ | ⟨a, _ | ⟨b, _ | ⟨c, _ | ⟨d, l⟩⟩⟩⟩ <;> simp [memRead, ofNat_leNat_four]

end

/-! ## Groups of fields that several tables share -/

/-- The default validity flags are bits 0 to 3 (`30_encoding.md` R51(e)). -/
theorem defaultValidityBits_extract (v : Byte) :
    defaultValidityBits.extract v =
      { pos := v.getLsbD 0, alt := v.getLsbD 1, hdg := v.getLsbD 2, spd := v.getLsbD 3 } := by
  simp [ValidityBits.extract, defaultValidityBits, flagOf_eq]

/-- The calendar is seven bytes in a row, the first zero-extended (`30_encoding.md` R55, R56). -/
theorem calendarFrom_read (o : Nat) (bytes : List Byte) :
    (calendarFrom o).read bytes = do
      let yr ← bytes[o]?
      let mo ← bytes[o + 1]?
      let dy ← bytes[o + 2]?
      let hr ← bytes[o + 3]?
      let mi ← bytes[o + 4]?
      let se ← bytes[o + 5]?
      let off ← bytes[o + 6]?
      return { year := 0#8 ++ yr, month := mo, day := dy, hour := hr, minute := mi, second := se, offset := off } := by
  simp [CalendarLayout.read, calendarFrom, FieldSpec.read_one, FieldSpec.read_one_wide, Option.bind_map]

/-! ## The routine a header selects -/

section
variable (lay : Layout) (mark : Byte) (l : List Byte)

theorem decodeFrame_fastfix : decodeFrame lay (mark :: 0x30 :: 0x02 :: l) =
    messageOr (.fastfix mark) (lay.fastfix.read (mark :: 0x30 :: 0x02 :: l)) := rfl

theorem decodeFrame_gpsfix : decodeFrame lay (mark :: 0x31 :: 0x01 :: l) =
    messageOr (.gpsfix mark) (lay.gpsfix.read (mark :: 0x31 :: 0x01 :: l)) := rfl

theorem decodeFrame_utcconst : decodeFrame lay (mark :: 0x32 :: 0x01 :: l) =
    messageOr (.utcconst mark) (lay.utcconst.read (mark :: 0x32 :: 0x01 :: l)) := rfl

theorem decodeFrame_utctime : decodeFrame lay (mark :: 0x32 :: 0x03 :: l) =
    messageOr (.utctime mark) (lay.utctime.read (mark :: 0x32 :: 0x03 :: l)) := rfl

theorem decodeFrame_chanstat : decodeFrame lay (mark :: 0x33 :: 0x01 :: l) =
    messageOr (.chanstat mark) (lay.chanstat.read (mark :: 0x33 :: 0x01 :: l)) := rfl

end

end Sys2Proof
end

section
/-!
# The five frames of the default layout (`30_encoding.md` R54 to R58)

For each message the default layout's operands of a frame, and with them its obligation (O37 to O41): the length is an
entry of the default table, the frame is the one its header selects with those operands, and the destination registers
are the fields of the written records.
-/
namespace Sys2Proof
open Machine

/-! ## The operands of a frame -/

theorem defaultLayout_fastfix_read (b0 b1 b2 st age t0 t1 t2 t3 a0 a1 a2 a3 o0 o1 o2 o3 h0 h1 sum : Byte) :
    defaultLayout.fastfix.read [b0, b1, b2, st, age, t0, t1, t2, t3, a0, a1, a2, a3, o0, o1, o2, o3, h0, h1, sum] =
      some
        { status := { pos := st.getLsbD 0, alt := st.getLsbD 1, hdg := st.getLsbD 2, spd := st.getLsbD 3 }
          age := age, tow := t3 ++ t2 ++ t1 ++ t0, lat := a3 ++ a2 ++ a1 ++ a0, lon := o3 ++ o2 ++ o1 ++ o0,
          alt := h1 ++ h0 } := by
  simp [defaultLayout, FastfixLayout.read, FieldSpec.readByte_one, FieldSpec.read_one, FieldSpec.read_two,
    FieldSpec.read_four, defaultValidityBits_extract]

theorem defaultLayout_gpsfix_read (b0 b1 b2 s1 s2 a0 a1 a2 a3 o0 o1 o2 o3 h0 h1 d0 d1 v0 v1 sum : Byte) :
    defaultLayout.gpsfix.read [b0, b1, b2, s1, s2, a0, a1, a2, a3, o0, o1, o2, o3, h0, h1, d0, d1, v0, v1, sum] =
      some
        { fixSrc := s1.extractLsb' 0 6, altHold := s1.extractLsb' 6 2
          status := { pos := s2.getLsbD 0, alt := s2.getLsbD 1, hdg := s2.getLsbD 2, spd := s2.getLsbD 3 }
          lat := a3 ++ a2 ++ a1 ++ a0, lon := o3 ++ o2 ++ o1 ++ o0, alt := h1 ++ h0, hdg := d1 ++ d0,
          spd := v1 ++ v0 } := by
  simp [defaultLayout, GpsfixLayout.read, FieldSpec.readByte_one, FieldSpec.read_two,
    FieldSpec.read_four, defaultValidityBits_extract, bitsOf_eq]

theorem defaultLayout_utcconst_read (b0 b1 b2 yr mo dy hr mi se off p0 p1 h0 h1 v0 v1 vis sum : Byte) :
    defaultLayout.utcconst.read [b0, b1, b2, yr, mo, dy, hr, mi, se, off, p0, p1, h0, h1, v0, v1, vis, sum] =
      some
        { cal := { year := 0#8 ++ yr, month := mo, day := dy, hour := hr, minute := mi, second := se, offset := off }
          pdop := p1 ++ p0, hdop := h1 ++ h0, vdop := v1 ++ v0, vis := vis.extractLsb' 0 4 } := by
  simp [defaultLayout, UtcconstLayout.read, calendarFrom_read, FieldSpec.readByte_one, FieldSpec.read_two, bitsOf_eq]

theorem defaultLayout_utctime_read (b0 b1 b2 t0 t1 t2 t3 w0 w1 yr mo dy hr mi se off sum : Byte) :
    defaultLayout.utctime.read [b0, b1, b2, t0, t1, t2, t3, w0, w1, yr, mo, dy, hr, mi, se, off, sum] =
      some
        { tow := t3 ++ t2 ++ t1 ++ t0, week := w1 ++ w0
          cal :=
            { year := 0#8 ++ yr, month := mo, day := dy, hour := hr, minute := mi, second := se, offset := off } } := by
  simp [defaultLayout, UtctimeLayout.read, calendarFrom_read, FieldSpec.read_two, FieldSpec.read_four]

theorem defaultLayout_chanstat_read (b0 b1 b2 ix prn fl snr az el ae sum : Byte) :
    defaultLayout.chanstat.read [b0, b1, b2, ix, prn, fl, snr, az, el, ae, sum] =
      some
        { index := ix, prn := prn, visible := fl.getLsbD 0, hasTracked := fl.getLsbD 1, tracking := fl.getLsbD 2,
          meetsMask := fl.getLsbD 3, snr := snr, az := 0#8 ++ az, el := el, alm := ae.extractLsb' 0 2,
          eph := ae.extractLsb' 2 2 } := by
  simp [defaultLayout, ChanstatLayout.read, FieldSpec.readByte_one, FieldSpec.read_one, FieldSpec.read_one_wide,
    flagOf_eq, bitsOf_eq]

/-! ## The slot of an index -/

/-- The clamp is the minimum with the last slot (`41_dispatch.md` R91). -/
theorem clampSlot_eq_iff (raw : Byte) (k : SlotIndex) : clampSlot raw = k ↔ k.val = min raw.toNat 11 := by
  rw [Fin.ext_iff, clampSlot_val]
  split <;> omega

/-! ## The obligations -/

/-- Settles O37: the validity flags and the five words are the fields of the `Position` that `FASTFIX` writes. -/
theorem fastfixFrameOperands : Obligations.FastfixFrameOperands := by
  refine ⟨rfl, ?_⟩
  intro mark st age t0 t1 t2 t3 a0 a1 a2 a3 o0 o1 o2 o3 h0 h1 sum f
  constructor
  · rw [decodeFrame_fastfix, defaultLayout_fastfix_read]
    rfl
  · intro s
    refine ⟨_, rfl, ?_⟩
    simp [f, valid4]

/-- Settles O38: the calendar goes to `GpsTime`, the dilutions and the count to `Position`. -/
theorem utcconstFrameOperands : Obligations.UtcconstFrameOperands := by
  refine ⟨rfl, ?_⟩
  intro mark yr mo dy hr mi se off p0 p1 h0 h1 v0 v1 vis sum f
  constructor
  · rw [decodeFrame_utcconst, defaultLayout_utcconst_read]
    rfl
  · intro s
    refine ⟨_, rfl, ?_⟩
    simp [f, writeCalendar]

/-- Settles O39: `UTCTIME` writes its time of week to both records, the calendar and the week to `GpsTime`. -/
theorem utctimeFrameOperands : Obligations.UtctimeFrameOperands := by
  refine ⟨rfl, ?_⟩
  intro mark t0 t1 t2 t3 w0 w1 yr mo dy hr mi se off sum f
  constructor
  · rw [decodeFrame_utctime, defaultLayout_utctime_read]
    rfl
  · intro s
    refine ⟨_, rfl, ?_⟩
    simp [f, writeCalendar]

/-- Settles O40: the two bit fields of `status1`, the flags of `status2` and the five words go to `Position`. -/
theorem gpsfixFrameOperands : Obligations.GpsfixFrameOperands := by
  refine ⟨rfl, ?_⟩
  intro mark s1 s2 a0 a1 a2 a3 o0 o1 o2 o3 h0 h1 d0 d1 v0 v1 sum f
  constructor
  · rw [decodeFrame_gpsfix, defaultLayout_gpsfix_read]
    rfl
  · intro s
    refine ⟨_, rfl, ?_⟩
    simp [f, valid4]

/-- Settles O41: the record goes to the one slot of the clamped index. -/
theorem chanstatFrameOperands : Obligations.ChanstatFrameOperands := by
  refine ⟨rfl, ?_⟩
  intro mark ix prn fl snr az el ae sum f
  constructor
  · rw [decodeFrame_chanstat, defaultLayout_chanstat_read]
    rfl
  · intro s
    refine ⟨_, execChanstat_eq f s, ?_⟩
    intro k hk
    have hslot : clampSlot f.index = k := (clampSlot_eq_iff ix k).mpr hk
    simp [hslot, channelRecOf, f]

end Sys2Proof
end

section
/-!
# Frames of the table's length decode (`00_scope.md` R5, `20_memory.md` R41)

The parts of a well-formed configuration by name, and that under them the decoder answers a message for every frame of
the length the table gives its identifier.
-/
namespace Sys2Proof

/-- The parts of `WF(Config)`, as propositions (`00_scope.md` R5). -/
theorem Config.wf_parts {c : Config} (h : c.wf = true) :
    4 ≤ c.bufMax ∧ (∀ e ∈ c.lenTable, 4 ≤ e.2 ∧ e.2 ≤ c.bufMax) ∧ (c.lenTable.map Prod.fst).Nodup ∧
      c.layoutOk identFastfix c.layout.fastfix.fields = true ∧ c.layoutOk identGpsfix c.layout.gpsfix.fields = true ∧
      c.layoutOk identUtcconst c.layout.utcconst.fields = true ∧
      c.layoutOk identUtctime c.layout.utctime.fields = true ∧
      c.layoutOk identChanstat c.layout.chanstat.fields = true := by
  simpa only [Config.wf, Bool.and_eq_true, decide_eq_true_eq, List.all_eq_true, and_assoc] using h

/-- The fields of an identifier of the table end inside its frames. -/
theorem Config.layoutOk_inside {c : Config} {i : Ident} {fields : List FieldSpec} {L : Nat}
    (h : c.layoutOk i fields = true) (hL : c.lengthOf i = some L) : ∀ f ∈ fields, f.off + f.width ≤ L := by
  intro f hf
  simp only [Config.layoutOk, hL, List.all_eq_true] at h
  have hin := h f hf
  simp only [FieldSpec.inFrame, Bool.and_eq_true, decide_eq_true_eq] at hin
  exact hin.2

/-- Operands that can be read make a message. -/
theorem messageOr_answers {α : Type} (make : α → Message) {o : Option α} (h : ∃ f, o = some f) :
    ∃ m, messageOr make o = .ok m := by
  obtain ⟨f, rfl⟩ := h
  exact ⟨make f, rfl⟩

/-- The decoder answers a message for every frame of the table's length: the identifier selects one of the five
routines, whose fields end inside the frame, or none of them. -/
theorem decodeFrame_answers {c : Config} {bytes : List Byte} {i : Ident} (hwf : c.wf = true)
    (hi : memReadBE bytes 1 = some i) (hL : c.lengthOf i = some bytes.length) :
    ∃ m, decodeFrame c.layout bytes = .ok m := by
  obtain ⟨-, -, -, hfast, hgps, hconst, htime, hchan⟩ := Config.wf_parts hwf
  have hlen : 0 < bytes.length := by have := Machine.length_of_memReadBE hi; omega
  simp only [decodeFrame, hi, List.getElem?_eq_getElem hlen]
  split_ifs with h1 h2 h3 h4 h5
  · exact messageOr_answers _ (FastfixLayout.read_answers _ (Config.layoutOk_inside hfast (h1 ▸ hL)))
  · exact messageOr_answers _ (UtcconstLayout.read_answers _ (Config.layoutOk_inside hconst (h2 ▸ hL)))
  · exact messageOr_answers _ (UtctimeLayout.read_answers _ (Config.layoutOk_inside htime (h3 ▸ hL)))
  · exact messageOr_answers _ (GpsfixLayout.read_answers _ (Config.layoutOk_inside hgps (h4 ▸ hL)))
  · exact messageOr_answers _ (ChanstatLayout.read_answers _ (Config.layoutOk_inside hchan (h5 ▸ hL)))
  · exact ⟨_, rfl⟩

end Sys2Proof
end

section
/-!
# The byte rules of the framing machine (`40_framing.md` R65 to R70, R72 to R75)

Which of its three meanings a byte in `InFrame` has, one equation each; APPEND against `Appended`; and with them the
obligations O14 to O18 and O20 to O22.
-/
namespace Sys2Proof.Machine

/-! ## Lines 5 and 6 of `40_framing.md` R65 -/

section
variable {s : State} {b : Byte} {plain : Result}

theorem receive_of_full (hfull : s.exp = .known s.buf.length) (hb : b ≠ endMarker) :
    receive b plain s = framingFault s := by
  rcases receive_cases b plain s with ⟨-, -, e⟩ | ⟨hnot, -⟩ | ⟨hnot, -⟩
  · exact e
  · exact absurd ⟨(full_iff s).mpr hfull, hb⟩ hnot
  · exact absurd ⟨(full_iff s).mpr hfull, hb⟩ hnot

theorem receive_of_escaped (hnot : ¬(s.exp = .known s.buf.length ∧ b ≠ endMarker)) (hesc : s.esc = true) :
    receive b plain s = escapedByte b s := by
  rcases receive_cases b plain s with ⟨hfull, hb, -⟩ | ⟨-, -, e⟩ | ⟨-, hclear, -⟩
  · exact absurd ⟨(full_iff s).mp hfull, hb⟩ hnot
  · exact e
  · simp [hesc] at hclear

theorem receive_of_plain (hnot : ¬(s.exp = .known s.buf.length ∧ b ≠ endMarker)) (hesc : s.esc = false) :
    receive b plain s = plain := by
  rcases receive_cases b plain s with ⟨hfull, hb, -⟩ | ⟨-, hset, -⟩ | ⟨-, -, e⟩
  · exact absurd ⟨(full_iff s).mp hfull, hb⟩ hnot
  · simp [hesc] at hset
  · exact e

end

/-! ## A byte's own meaning -/

theorem plainByte_esc (s : State) : plainByte escByte s = .next (s.setEsc true) := rfl

theorem plainByte_end (s : State) :
    plainByte endMarker s =
      if s.complete then completeFrame s else .next (raise (.shortFrame s.buf.length) s) := rfl

theorem plainByte_data {b : Byte} (hesc : b ≠ escByte) (hend : b ≠ endMarker) (s : State) :
    plainByte b s = append b s := by
  rw [plainByte, if_neg hesc, if_neg hend]

/-- An unescaped END completes the frame or is a short frame: lines 5 and 6 never take it (`40_framing.md` R65). -/
theorem exec_end_inFrame {s : State} (hst : s.st = .inFrame) (hesc : s.esc = false) :
    exec .endByte s =
      if s.complete then completeFrame s else .next (raise (.shortFrame s.buf.length) s) := by
  have hnot : ¬(s.exp = .known s.buf.length ∧ endMarker ≠ endMarker) := fun h => h.2 rfl
  exact (exec_byte_inFrame hst endMarker).trans ((receive_of_plain hnot hesc).trans (plainByte_end s))

/-! ## LOOKUP's value and APPEND -/

theorem expectedFor_of_some {c : Config} {i : Ident} {L : Nat} (h : c.lengthOf i = some L) :
    expectedFor c i = .known L := by
  simp [expectedFor, h]

theorem expectedFor_of_none {c : Config} {i : Ident} (h : c.lengthOf i = none) : expectedFor c i = .unknown := by
  simp [expectedFor, h]

/-- A length that LOOKUP found is the table's. -/
theorem lengthOf_of_expectedFor {c : Config} {i : Ident} {L : Nat} (h : expectedFor c i = .known L) :
    c.lengthOf i = some L := by
  unfold expectedFor at h
  split at h
  · next hlen => cases h; exact hlen
  · cases h

/-- Settles O22: the three cases of APPEND are the overflow, the lookup at the third byte, and the plain store. -/
theorem appendStoresOverflowsOrLooksUp : Obligations.AppendStoresOverflowsOrLooksUp := by
  intro s d
  rcases append_cases d s with ⟨hfull, e⟩ | ⟨hroom, hlen, i, hi, e⟩ | ⟨hroom, hlen, e⟩ <;>
    refine ⟨_, e, ?_⟩ <;> unfold Appended
  · rw [if_pos hfull]
    rfl
  · rw [if_neg hroom]
    refine ⟨expectedFor s.config i, rfl, fun hne => absurd (by omega) hne, fun _ => ⟨i, hi, ?_, ?_⟩⟩
    · exact fun L hL => expectedFor_of_some hL
    · exact fun hnone => expectedFor_of_none hnone
  · rw [if_neg hroom]
    exact ⟨s.exp, rfl, fun _ => rfl, fun hthird => absurd (by omega) hlen⟩

/-! ## The obligations on single bytes -/

/-- Settles O14: the empty frame, with the sync byte stored where `STORE_SYNC` says so; the capacity of at least four
bytes keeps that store from overflowing. -/
theorem syncStartsFrame : Obligations.SyncStartsFrame := by
  intro s hwf hidle
  obtain ⟨hcap, -⟩ := Config.wf_parts hwf
  have hstart : exec .sync s = startFrame s := (exec_byte_idle hidle syncByte).trans (if_pos rfl)
  rw [hstart, startFrame_eq hcap]
  cases hstore : s.config.storeSync <;> simp [State.enterFrame, State.pushByte]

/-- Settles O15: only the sync byte has a meaning in `Idle`. -/
theorem idleIgnoresOtherBytes : Obligations.IdleIgnoresOtherBytes := by
  intro s b hidle hb
  rw [exec_byte_idle hidle, if_neg hb]

/-- Settles O16: line 5 of `40_framing.md` R65 stands before the escape flag, so the fault is the same for either. -/
theorem fullBufferFramingFault : Obligations.FullBufferFramingFault := by
  rintro s b _ i hst hexp rfl hb hi
  rw [exec_byte_inFrame hst, receive_of_full hexp hb, framingFault, hi]
  rfl

/-- Settles O17: line 6 of `40_framing.md` R65 takes the byte before its class counts, and APPEND does the rest. -/
theorem escapedByteAppended : Obligations.EscapedByteAppended := by
  intro s b hst hesc hnot
  rw [exec_byte_inFrame hst, receive_of_escaped hnot hesc]
  exact appendStoresOverflowsOrLooksUp (s.setEsc false) (b ||| 0x80)

/-- Settles O18: ESC has its own meaning, which sets the flag and stores nothing. -/
theorem escSetsFlag : Obligations.EscSetsFlag := by
  intro s hst hesc hexp
  have hnot : ¬(s.exp = .known s.buf.length ∧ escByte ≠ endMarker) := fun h => hexp h.1
  exact (exec_byte_inFrame hst escByte).trans ((receive_of_plain hnot hesc).trans (plainByte_esc s))

/-- Settles O20: in both cases the frame is not complete, in the first by its length, in the second by `exp`. -/
theorem endShortFrame : Obligations.EndShortFrame := by
  intro s hst hesc hshort
  have hincomplete : ¬s.complete = true := by
    rw [complete_iff]
    rintro ⟨hlen, hexp⟩
    rcases hshort with ⟨hlt, -⟩ | ⟨L, hL, hlt⟩
    · omega
    · rcases hexp with hexp | hexp <;> rw [hL] at hexp <;> cases hexp
      omega
  rw [exec_end_inFrame hst hesc, if_neg hincomplete]
  rfl

/-- Settles O21: every other byte has APPEND as its own meaning, a sync byte among them. -/
theorem dataByteAppended : Obligations.DataByteAppended := by
  intro s b hst hesc hexp hbesc hbend
  rw [exec_byte_inFrame hst, receive_of_plain (fun h => hexp h.1) hesc, plainByte_data hbesc hbend]
  exact appendStoresOverflowsOrLooksUp s b

end Sys2Proof.Machine
end

section
/-!
# Completion (`40_framing.md` R71, `41_dispatch.md` R85)

What DISPATCH leaves alone and when it answers, the completed frame's two flags on the invariant, and with them the
obligation O19.
-/
namespace Sys2Proof.Machine

/-! ## What DISPATCH leaves alone -/

/-- What no decode routine and no drop writes (`10_state.md` R21): the configuration, the framing registers, `fatal`,
the input and its clock value; and the event list only goes on. -/
structure OnlyDispatched (s t : State) : Prop where
  config : t.config = s.config
  st : t.st = s.st
  esc : t.esc = s.esc
  buf : t.buf = s.buf
  exp : t.exp = s.exp
  sum : t.sum = s.sum
  fatal : t.fatal = s.fatal
  inputs : t.inputs = s.inputs
  now : t.now = s.now
  events : s.events <+: t.events

theorem OnlyDispatched.refl (s : State) : OnlyDispatched s s :=
  ⟨rfl, rfl, rfl, rfl, rfl, rfl, rfl, rfl, rfl, List.prefix_rfl⟩

theorem OnlyDispatched.trans {s t u : State} (h : OnlyDispatched s t) (k : OnlyDispatched t u) :
    OnlyDispatched s u where
  config := k.config.trans h.config
  st := k.st.trans h.st
  esc := k.esc.trans h.esc
  buf := k.buf.trans h.buf
  exp := k.exp.trans h.exp
  sum := k.sum.trans h.sum
  fatal := k.fatal.trans h.fatal
  inputs := k.inputs.trans h.inputs
  now := k.now.trans h.now
  events := h.events.trans k.events

theorem onlyDispatched_emit (s : State) (e : Event) : OnlyDispatched s (s.emit e) :=
  ⟨rfl, rfl, rfl, rfl, rfl, rfl, rfl, rfl, rfl, List.prefix_append _ _⟩

/-- Every decode routine writes Navigation State and `last_gsv` alone, and adds its events at the end. -/
theorem runMessage_onlyDispatched {m : Message} {s t : State} (h : runMessage m s = .next t) : OnlyDispatched s t := by
  cases m with
  | chanstat mark f =>
    cases (execChanstat_eq f s).symm.trans h
    exact ⟨rfl, rfl, rfl, rfl, rfl, rfl, rfl, rfl, rfl, List.prefix_append _ _⟩
  | fastfix | gpsfix | utcconst | utctime | unknown =>
    cases h
    exact ⟨rfl, rfl, rfl, rfl, rfl, rfl, rfl, rfl, rfl, List.prefix_append _ _⟩

/-- DISPATCH drops the frame or runs a decode routine, after the checksum report where the sum fails. -/
theorem dispatch_onlyDispatched {f : Frame} {s t : State} (h : dispatch f s = .next t) : OnlyDispatched s t := by
  obtain ⟨i, s1, -, hs1, hcases⟩ := dispatch_cases h
  have hcheck : OnlyDispatched s s1 := by
    rw [hs1]
    split
    · exact .refl s
    · exact onlyDispatched_emit s _
  rcases hcases with ⟨-, rfl⟩ | ⟨-, -, -, rfl⟩ | ⟨-, -, m, -, hrun⟩
  · exact hcheck.trans (onlyDispatched_emit s1 _)
  · exact hcheck.trans (onlyDispatched_emit s1 _)
  · exact hcheck.trans (runMessage_onlyDispatched hrun)

/-! ## When DISPATCH answers -/

/-- The last part of DISPATCH answers for a frame that decodes. -/
theorem dispatchDecoded_answers {bytes : List Byte} {s : State} {m : Message}
    (hm : decodeFrame s.config.layout bytes = .ok m) : ∃ t, dispatchDecoded bytes s = .next t := by
  obtain ⟨t, ht⟩ := runMessage_answers m s
  exact ⟨t, by simp only [dispatchDecoded, hm, ht]⟩

/-- DISPATCH answers for a frame with an identifier that is scanned or decodes: no other read can stop it. -/
theorem dispatch_answers {f : Frame} {s : State} {i : Ident} (hi : memReadBE f.bytes 1 = some i)
    (hdec : f.scanned = true ∨ ∃ m, decodeFrame s.config.layout f.bytes = .ok m) : ∃ t, dispatch f s = .next t := by
  have hconfig : (if f.valid then s else raise (.checksumMismatch i) s).config = s.config := by split <;> simp
  simp only [dispatch, hi]
  split
  · exact ⟨_, rfl⟩
  · next hscan =>
    split
    · exact ⟨_, rfl⟩
    · obtain ⟨m, hm⟩ := hdec.resolve_left hscan
      exact dispatchDecoded_answers (hconfig ▸ hm)

/-- On the invariant a completed frame is scanned, or has the table's length and so decodes (`20_memory.md` R41). -/
theorem complete_frame_decodes {s : State} {i : Ident} (hinv : MachineInv s) (hlen : 3 ≤ s.buf.length)
    (hexp : s.exp = .unknown ∨ s.exp = .known s.buf.length) (hi : memReadBE s.buf 1 = some i) :
    s.exp = .unknown ∨ ∃ m, decodeFrame s.config.layout s.buf = .ok m := by
  refine hexp.imp_right fun hknown => ?_
  have hL : s.config.lengthOf i = some s.buf.length :=
    lengthOf_of_expectedFor ((hinv.exp_looked_up i hlen hi).symm.trans hknown)
  exact decodeFrame_answers hinv.config_wf hi hL

/-! ## The completed frame -/

/-- The running accumulator is zero exactly when the bytes of the buffer sum to zero modulo 256. -/
theorem checksumOk_eq {s : State} (hsum : s.sum = byteSum s.buf) :
    s.checksumOk = decide ((s.buf.map BitVec.toNat).sum % 256 = 0) := by
  rw [State.checksumOk, hsum, ← byteSum_toNat, Bool.eq_iff_iff, beq_iff_eq, decide_eq_true_eq]
  exact BitVec.toNat_inj.symm

/-- The scanned flag is the `Unknown` value of `exp`. -/
theorem scanning_eq (s : State) : s.scanning = decide (s.exp = .unknown) := rfl

/-- Settles O19: the frame of the buffer is dispatched from `Idle` after its event; DISPATCH answers because the frame
is scanned or decodes, and what it leaves alone gives the framing registers, `fatal` and the events before its own. -/
theorem endCompletesFrame : Obligations.EndCompletesFrame := by
  intro s hinv hst hesc hlen hexp valid scanned
  obtain ⟨i, hi⟩ := memReadBE_isSome (bytes := s.buf) (off := 1) (by omega)
  have hframe : s.frame = { bytes := s.buf, valid := valid, scanned := scanned } := by
    rw [State.frame, checksumOk_eq hinv.sum_eq, scanning_eq]
  have hexec : exec .endByte s =
      dispatch { bytes := s.buf, valid := valid, scanned := scanned } (s.toIdle.emit (.frame s.buf valid scanned)) := by
    rw [exec_end_inFrame hst hesc, if_pos ((complete_iff s).mpr ⟨hlen, hexp⟩), completeFrame, hframe]
  have hdec : scanned = true ∨ ∃ m, decodeFrame s.config.layout s.buf = .ok m := by
    simpa only [scanned, decide_eq_true_eq] using complete_frame_decodes hinv hlen hexp hi
  obtain ⟨t, ht⟩ := dispatch_answers (f := { bytes := s.buf, valid := valid, scanned := scanned })
    (s := s.toIdle.emit (.frame s.buf valid scanned)) hi hdec
  have hkept := dispatch_onlyDispatched ht
  obtain ⟨more, hmore⟩ := hkept.events
  refine ⟨t, hexec.trans ht, ht, hkept.st, hkept.esc, hkept.buf, hkept.exp, hkept.sum, hkept.fatal, more, ?_⟩
  simpa using hmore.symm

end Sys2Proof.Machine
end

section
/-!
# What the decode routines compute from `Channel` (`41_dispatch.md` R91 to R93)

The clamp of an index, the visible list and the tracked count, with the obligations O29, O30 and O31.
-/
namespace Sys2Proof.Machine

/-! ## The clamp -/

/-- Settles O29: both clauses are the two branches of the clamp's slot and of its report. -/
theorem channelIndexClamped : Obligations.ChannelIndexClamped := by
  intro raw s
  rw [clampReport_eq]
  constructor
  · intro habove
    have hslot : clampSlot raw = 11 := (clampSlot_eq_iff raw 11).mpr (Nat.min_eq_right habove.le).symm
    exact ⟨hslot, if_pos habove⟩
  · intro hinside
    have hslot : (clampSlot raw).val = raw.toNat := (clampSlot_val raw).trans (if_pos hinside)
    exact ⟨hslot, if_neg (Nat.not_lt.mpr hinside)⟩

/-- The slots after the write at a clamped index: that slot holds the record, the others keep theirs
(`41_dispatch.md` R90). -/
theorem getElem_set_clampSlot (ch : Channels) (raw : Byte) (c : ChannelRec) (k : SlotIndex) :
    (ch.set (clampSlot raw) (some c))[k] =
      if k.val = (if raw.toNat ≤ 11 then raw.toNat else 11) then some c else ch[k] := by
  rw [← clampSlot_val, Fin.getElem_fin, Vector.getElem_set]
  exact if_congr eq_comm rfl rfl

/-! ## The slots with a flag -/

/-- An absent slot has no flag. -/
theorem slotHas_eq_elim (flag : ChannelRec → Bool) (slot : Option ChannelRec) :
    slotHas flag slot = slot.elim false flag := by
  cases slot <;> rfl

theorem slotHas_eq_true_iff (flag : ChannelRec → Bool) (slot : Option ChannelRec) :
    slotHas flag slot = true ↔ ∃ c, slot = some c ∧ flag c = true := by
  cases slot <;> simp [slotHas]

theorem mem_visibleSlots_iff (ch : Channels) (k : SlotIndex) :
    k ∈ visibleSlots ch ↔ ∃ c, ch[k] = some c ∧ c.visible = true := by
  rw [visibleSlots, List.mem_filter, slotHas_eq_true_iff]
  exact and_iff_right (List.mem_finRange k)

/-- Settles O30: the list is a filter of the twelve indices, which stand in ascending order. -/
theorem visibleSlotsAscending : Obligations.VisibleSlotsAscending := by
  intro ch
  have hsub : (visibleSlots ch).Sublist (List.finRange 12) := List.filter_sublist
  exact ⟨mem_visibleSlots_iff ch, (List.pairwise_lt_finRange 12).sublist hsub, hsub.length_le⟩

/-- The tracked count as a count over the slot numbers (`41_dispatch.md` R93). -/
theorem trackedCount_eq (ch : Channels) :
    trackedCount ch =
      ((List.range 12).filter fun k => (ch.toList.getD k none).elim false ChannelRec.tracking).length := by
  have hslot (k : SlotIndex) : ch.toList.getD k none = ch[k] := by simp
  rw [← List.map_coe_finRange_eq_range, List.filter_map, List.length_map]
  simp only [Function.comp_def, hslot, trackedCount, slotHas_eq_elim]

theorem trackedCount_le (ch : Channels) : trackedCount ch ≤ 12 :=
  (List.length_filter_le _ _).trans_eq List.length_finRange

/-- Settles O31: a count of at most twelve is below 2 ^ 4. -/
theorem trackedCountCountsTracking : Obligations.TrackedCountCountsTracking := by
  intro ch
  have hle := trackedCount_le ch
  have hfits : trackedCount ch < 2 ^ 4 := by omega
  exact ⟨trackedCount_eq ch, hle, Nat.mod_eq_of_lt hfits⟩

end Sys2Proof.Machine
end

section
/-!
# The decode routines (`41_dispatch.md` R86 to R90, R94, R95)

Each routine as one record update, with the obligations O23 to O28.
-/
namespace Sys2Proof.Machine

/-! ## The routines without a throttle -/

/-- Settles O23: the four validity flags are those of VALID4, and `emit` appends the event. -/
theorem fastfixWritesItsFields : Obligations.FastfixWritesItsFields := fun _ _ _ => rfl

/-- Settles O24: the calendar write keeps `week` and the time of week. -/
theorem utcconstWritesItsFields : Obligations.UtcconstWritesItsFields := fun _ _ _ => rfl

/-- Settles O25: with `tow` and `week` the calendar write covers every field of `GpsTime`. -/
theorem utctimeWritesItsFields : Obligations.UtctimeWritesItsFields := fun _ _ _ => rfl

/-- Settles O26: the four validity flags are those of VALID4, and `emit` appends the event. -/
theorem gpsfixWritesItsFields : Obligations.GpsfixWritesItsFields := fun _ _ _ => rfl

/-- Settles O28: the routine is the drop event alone. -/
theorem unknownIdentifierDropped : Obligations.UnknownIdentifierDropped := fun _ _ _ => rfl

/-! ## `CHANSTAT` and its throttle -/

theorem throttleDue_none (ticks now : Nat) : throttleDue none ticks now = true := rfl

theorem throttleDue_some (t ticks now : Nat) :
    throttleDue (some t) ticks now = decide (t ≤ now ∧ ticks ≤ now - t) :=
  (Bool.decide_and _ _).symm

/-- Settles O27: the slots by `getElem_set_clampSlot`; the rest is the record update of `execChanstat_eq`, its throttle
decided by whether a report was made before. -/
theorem chanstatWritesOneSlot : Obligations.ChanstatWritesOneSlot := by
  intro s mark f
  refine ⟨_, execChanstat_eq f s, ?_⟩
  intro i vis n due reqs
  have hdue : due = throttleDue s.lastGsv s.config.throttleTicks s.now := by
    cases hlast : s.lastGsv with
    | none => simp only [due, hlast, throttleDue_none]
    | some t => simp only [due, hlast, throttleDue_some]
  have hreqs : reqs = throttleReqs due vis := rfl
  refine ⟨getElem_set_clampSlot s.channel f.index (channelRecOf f), ?_⟩
  rw [hreqs, hdue]

end Sys2Proof.Machine
end

section
/-!
# The gates of DISPATCH (`41_dispatch.md` R85)

The message an identifier selects, in any layout; DISPATCH as one equation over its gates; and the obligation O34.
-/
namespace Sys2Proof

/-! ## The message an identifier selects -/

theorem not_mem_dispatchedIdents_iff (i : Ident) :
    i ∉ dispatchedIdents ↔
      i ≠ identFastfix ∧ i ≠ identGpsfix ∧ i ≠ identUtcconst ∧ i ≠ identUtctime ∧ i ≠ identChanstat := by
  simp only [dispatchedIdents, List.mem_cons, List.not_mem_nil, or_false, not_or]

/-- The message that a frame's mark and identifier select, its operands left open (`30_encoding.md` R53). -/
inductive Selects (mark : Byte) : Ident → Message → Prop where
  | fastfix (f : FastfixFields) : Selects mark identFastfix (.fastfix mark f)
  | gpsfix (f : GpsfixFields) : Selects mark identGpsfix (.gpsfix mark f)
  | utcconst (f : UtcconstFields) : Selects mark identUtcconst (.utcconst mark f)
  | utctime (f : UtctimeFields) : Selects mark identUtctime (.utctime mark f)
  | chanstat (f : ChanstatFields) : Selects mark identChanstat (.chanstat mark f)
  | unknown {i : Ident} (hi : i ∉ dispatchedIdents) : Selects mark i (.unknown mark i)

/-- The kind of the selected message, identifier by identifier (`41_dispatch.md` R85). -/
theorem Selects.kind {mark : Byte} {i : Ident} {m : Message} (h : Selects mark i m) :
    (i = identFastfix → ∃ mark x, m = .fastfix mark x) ∧ (i = identUtcconst → ∃ mark x, m = .utcconst mark x) ∧
      (i = identUtctime → ∃ mark x, m = .utctime mark x) ∧ (i = identGpsfix → ∃ mark x, m = .gpsfix mark x) ∧
      (i = identChanstat → ∃ mark x, m = .chanstat mark x) ∧
      (i ∉ dispatchedIdents → ∃ mark, m = .unknown mark i) := by
  cases h with
  | fastfix | gpsfix | utcconst | utctime | chanstat => simp [dispatchedIdents]
  | unknown hi =>
    obtain ⟨hfast, hgps, hconst, htime, hchan⟩ := (not_mem_dispatchedIdents_iff i).mp hi
    exact ⟨(absurd · hfast), (absurd · hconst), (absurd · htime), (absurd · hgps), (absurd · hchan),
      fun _ => ⟨mark, rfl⟩⟩

/-- A message made of operands has operands. -/
theorem messageOr_cases {α : Type} {make : α → Message} {o : Option α} {m : Message}
    (h : messageOr make o = .ok m) : ∃ f, o = some f ∧ m = make f := by
  cases o with
  | none => cases h
  | some f => cases h; exact ⟨f, rfl, rfl⟩

/-- Where the decoder answers, the frame has a mark and an identifier, and its message is the one they select. -/
theorem decodeFrame_selects {lay : Layout} {bytes : List Byte} {m : Message} (h : decodeFrame lay bytes = .ok m) :
    ∃ mark i, bytes[0]? = some mark ∧ memReadBE bytes 1 = some i ∧ Selects mark i m := by
  unfold decodeFrame at h
  split at h
  · next mark i hmark hi =>
    refine ⟨mark, i, hmark, hi, ?_⟩
    split_ifs at h with hfast hconst htime hgps hchan
    · obtain ⟨f, -, rfl⟩ := messageOr_cases h; subst hfast; exact .fastfix f
    · obtain ⟨f, -, rfl⟩ := messageOr_cases h; subst hconst; exact .utcconst f
    · obtain ⟨f, -, rfl⟩ := messageOr_cases h; subst htime; exact .utctime f
    · obtain ⟨f, -, rfl⟩ := messageOr_cases h; subst hgps; exact .gpsfix f
    · obtain ⟨f, -, rfl⟩ := messageOr_cases h; subst hchan; exact .chanstat f
    · cases h
      exact .unknown ((not_mem_dispatchedIdents_iff i).mpr ⟨hfast, hgps, hconst, htime, hchan⟩)
  · cases h

end Sys2Proof

namespace Sys2Proof.Machine

/-! ## The gates -/

/-- The routine a message selects is the meaning of its instruction. -/
theorem runMessage_eq_exec (m : Message) (s : State) : runMessage m s = exec m.toInstr s := by
  cases m <;> rfl

/-- The state after the checksum report: one event, or nothing. -/
def checksumReported (f : Frame) (i : Ident) (s : State) : State :=
  { s with events := s.events ++ if f.valid then [] else [.fault (.checksumMismatch i)] }

theorem checksumReported_eq (f : Frame) (i : Ident) (s : State) :
    (if f.valid then s else raise (.checksumMismatch i) s) = checksumReported f i s := by
  unfold checksumReported
  split
  · rw [List.append_nil]
  · rfl

/-- DISPATCH of a frame with an identifier, gate by gate. -/
theorem dispatch_eq {f : Frame} {i : Ident} (hi : memReadBE f.bytes 1 = some i) (s : State) :
    dispatch f s =
      if f.scanned then .next ((checksumReported f i s).emit (.drop .unknownMessageId i))
      else if !f.valid && !s.config.dispatchInvalid then
        .next ((checksumReported f i s).emit (.drop .checksumMismatch i))
      else dispatchDecoded f.bytes (checksumReported f i s) := by
  simp only [dispatch, hi, checksumReported_eq]
  rfl

/-- Past the gates, a frame that decodes runs its instruction. -/
theorem dispatch_of_decodes {f : Frame} {i : Ident} {s : State} {m : Message} (hi : memReadBE f.bytes 1 = some i)
    (hscan : f.scanned = false) (hgate : f.valid = true ∨ s.config.dispatchInvalid = true)
    (hm : decodeFrame s.config.layout f.bytes = .ok m) :
    dispatch f s = exec m.toInstr (checksumReported f i s) := by
  have hopen : ¬(!f.valid && !s.config.dispatchInvalid) = true := by
    rcases hgate with h | h <;> simp [h]
  have hlayout : (checksumReported f i s).config.layout = s.config.layout := rfl
  rw [dispatch_eq hi, if_neg (by simp [hscan]), if_neg hopen]
  simp only [dispatchDecoded, hlayout, hm, runMessage_eq_exec]

/-- Settles O34: the three clauses are the branches of `dispatch_eq`; in the last the table's length makes the frame
decode, and `decodeFrame_selects` names its message. -/
theorem dispatchGates : Obligations.DispatchGates := by
  intro s f i hi s1
  refine ⟨?scanned, ?strict, ?decoded⟩
  case scanned =>
    intro hscan
    rw [dispatch_eq hi, if_pos hscan]
    rfl
  case strict =>
    intro hscan hvalid hinvalid
    rw [dispatch_eq hi, if_neg (by simp [hscan]), if_pos (by simp [hvalid, hinvalid])]
    rfl
  case decoded =>
    intro hscan hgate hwf hlen
    obtain ⟨m, hm⟩ := decodeFrame_answers hwf hi hlen
    obtain ⟨mark, j, -, hj, hsel⟩ := decodeFrame_selects hm
    obtain rfl : i = j := Option.some.inj (hi.symm.trans hj)
    exact ⟨m, hm, dispatch_of_decodes hi hscan hgate hm, hsel.kind⟩

end Sys2Proof.Machine
end

section
/-!
# The satellite requests of a due report (`42_encoder_requests.md` R107)

The group of four slots of one request, the groups laid end to end, and the obligation O33.
-/
namespace Sys2Proof.Machine

/-! ## The group of one request -/

/-- The slots of the request at position `j`. -/
def gsvSlots (vis : List SlotIndex) (j : Nat) : List SlotIndex := (vis.drop (4 * j)).take 4

@[simp] theorem length_gsvSlots (vis : List SlotIndex) (j : Nat) :
    (gsvSlots vis j).length = min 4 (vis.length - 4 * j) := by
  rw [gsvSlots, List.length_take, List.length_drop]

/-- The first `n` groups laid end to end are the first `4 * n` slots. -/
theorem flatMap_range_gsvSlots (vis : List SlotIndex) (n : Nat) :
    (List.range n).flatMap (gsvSlots vis) = vis.take (4 * n) := by
  induction n with
  | zero => rfl
  | succ n ih =>
    calc (List.range (n + 1)).flatMap (gsvSlots vis)
      _ = vis.take (4 * n) ++ gsvSlots vis n := by
        rw [List.range_succ, List.flatMap_append, ih, List.flatMap_singleton]
      _ = vis.take (4 * (n + 1)) := by rw [Nat.mul_succ, List.take_add, gsvSlots]

/-! ## The list of requests -/

/-- The requests as one map over their positions. -/
theorem gsvRequests_eq (vis : List SlotIndex) :
    gsvRequests vis =
      (List.range ((vis.length + 3) / 4)).map fun j => .gsv (j + 1) ((vis.length + 3) / 4) (gsvSlots vis j) := rfl

@[simp] theorem length_gsvRequests (vis : List SlotIndex) : (gsvRequests vis).length = (vis.length + 3) / 4 := by
  rw [gsvRequests_eq, List.length_map, List.length_range]

theorem getElem?_gsvRequests {vis : List SlotIndex} {k : Nat} (hk : k < (vis.length + 3) / 4) :
    (gsvRequests vis)[k]? = some (.gsv (k + 1) ((vis.length + 3) / 4) (gsvSlots vis k)) := by
  rw [gsvRequests_eq, List.getElem?_map, List.getElem?_range hk, Option.map_some]

/-- Settles O33: the sizes are `length_gsvSlots` at `k` below `ceil(N / 4)`, and the `ceil(N / 4)` groups reach the end of
the list, so that `flatMap_range_gsvSlots` takes all of it. -/
theorem gsvRequestsGroupByFour : Obligations.GsvRequestsGroupByFour := by
  intro vis n
  refine ⟨length_gsvRequests vis, ?group, ?cover⟩
  case group =>
    intro k hk
    refine ⟨gsvSlots vis k, getElem?_gsvRequests hk, ?full, ?last⟩
    case full =>
      intro hfull
      rw [length_gsvSlots]
      omega
    case last =>
      intro hlast
      rw [length_gsvSlots]
      omega
  case cover =>
    have hreach : vis.length ≤ 4 * n := by omega
    rw [gsvRequests_eq, List.flatMap_map]
    exact (flatMap_range_gsvSlots vis n).trans (List.take_of_length_le hreach)

end Sys2Proof.Machine
end

section
/-!
# One step, input by input (`40_framing.md` R65 lines 1 and 2, `60_exceptions.md` R120, R129)

What a step answers for each input that can wait, that no byte is refused, and with them the obligations O1, O2, O3
and O12.
-/
namespace Sys2Proof.Machine

/-! ## The step's equations -/

section
variable {s : State}

theorem step_of_ill_formed (hwf : s.config.wf = false) : step s = .refused .illFormedConfig := by simp [step, hwf]

theorem step_of_no_input (hwf : s.config.wf = true) (hin : s.inputs = []) : step s = .next s.clearEvents := by
  simp [step, fetch, hwf, hin]

/-- A fatal machine drops its input, whatever it is (`40_framing.md` R65 line 1). -/
theorem step_of_fatal {i : Input} {rest : List Input} (hwf : s.config.wf = true) (hfatal : s.fatal = true)
    (hin : s.inputs = i :: rest) : step s = .next (s.clearEvents.dropInput rest) := by
  cases i <;> simp [step, fetch, hwf, hfatal, hin]

theorem step_of_sourceFail {rest : List Input} (hwf : s.config.wf = true) (hfatal : s.fatal = false)
    (hin : s.inputs = .sourceFail :: rest) :
    step s = .next (raise .sourceUnavailable (s.clearEvents.dropInput rest)) := by
  simp [step, fetch, hwf, hfatal, hin]

theorem step_of_byte {b : Byte} {n : Nat} {rest : List Input} (hwf : s.config.wf = true) (hfatal : s.fatal = false)
    (hin : s.inputs = .byte b n :: rest) : step s = exec (decodeByte b) (s.clearEvents.takeByte rest n) := by
  simp [step, fetch, hwf, hfatal, hin]

end

/-! ## No byte is refused -/

/-- The outcome is a next state or a fault. -/
def Unrefused (r : Result) : Prop := ∀ q, r ≠ .refused q

theorem unrefused_next (t : State) : Unrefused (.next t) := by
  intro q h
  cases h

theorem append_unrefused (d : Byte) (s : State) : Unrefused (append d s) := by
  obtain ⟨t, ht, -⟩ := appendStoresOverflowsOrLooksUp s d
  exact ht ▸ unrefused_next t

theorem framingFault_unrefused (s : State) : Unrefused (framingFault s) := by
  intro q h
  unfold framingFault at h
  split at h <;> cases h

theorem dispatchDecoded_unrefused (bytes : List Byte) (s : State) : Unrefused (dispatchDecoded bytes s) := by
  unfold dispatchDecoded
  split
  · next m _ =>
    obtain ⟨t, ht⟩ := runMessage_answers m s
    exact ht ▸ unrefused_next t
  all_goals
    intro q h
    cases h

theorem dispatch_unrefused (f : Frame) (s : State) : Unrefused (dispatch f s) := by
  cases hi : memReadBE f.bytes 1 with
  | none =>
    intro q h
    simp only [dispatch, hi, reduceCtorEq] at h
  | some i =>
    rw [dispatch_eq hi]
    split_ifs
    · exact unrefused_next _
    · exact unrefused_next _
    · exact dispatchDecoded_unrefused _ _

theorem plainByte_unrefused (b : Byte) (s : State) : Unrefused (plainByte b s) := by
  unfold plainByte
  split_ifs
  · exact unrefused_next _
  · exact dispatch_unrefused _ _
  · exact unrefused_next _
  · exact append_unrefused b s

theorem exec_byte_unrefused (b : Byte) (s : State) : Unrefused (exec (decodeByte b) s) := by
  cases hst : s.st with
  | idle =>
    rw [exec_byte_idle hst]
    unfold startFrame
    split_ifs
    · exact append_unrefused _ _
    · exact unrefused_next _
    · exact unrefused_next _
  | inFrame =>
    rw [exec_byte_inFrame hst]
    rcases receive_cases b (plainByte b s) s with ⟨-, -, e⟩ | ⟨-, -, e⟩ | ⟨-, -, e⟩ <;> rw [e]
    · exact framingFault_unrefused s
    · exact append_unrefused _ _
    · exact plainByte_unrefused b s

/-! ## The obligations -/

/-- Settles O1: every class of a wire byte is well-formed, and the step is the one of `step_of_byte`. -/
theorem stepRunsDecodedByte : Obligations.StepRunsDecodedByte := by
  intro s b n rest hwf hfatal hin
  refine ⟨?_, step_of_byte hwf hfatal hin⟩
  rcases decodeByte_cases b with ⟨-, e⟩ | ⟨-, e⟩ | ⟨-, e⟩ | ⟨hsync, hesc, hend, e⟩ <;> rw [e]
  · rfl
  · rfl
  · rfl
  · simp only [Instr.wf, Bool.and_eq_true, bne_iff_ne]
    exact ⟨⟨hesc, hsync⟩, hend⟩

/-- Settles O2: the step without an input clears the event list alone. -/
theorem noInputNoChange : Obligations.NoInputNoChange := fun _ hwf hin => step_of_no_input hwf hin

/-- Settles O3: a well-formed configuration's step is a next state, or the meaning of a byte, which is never refused. -/
theorem illFormedConfigRefused : Obligations.IllFormedConfigRefused := by
  intro s
  refine ⟨fun h => ?_, step_of_ill_formed⟩
  by_contra hwf
  rw [Bool.not_eq_false] at hwf
  cases hin : s.inputs with
  | nil => cases (step_of_no_input hwf hin).symm.trans h
  | cons i rest =>
    cases hfatal : s.fatal with
    | true => cases (step_of_fatal hwf hfatal hin).symm.trans h
    | false =>
      cases i with
      | byte b n => exact exec_byte_unrefused _ _ _ ((step_of_byte hwf hfatal hin).symm.trans h)
      | sourceFail => cases (step_of_sourceFail hwf hfatal hin).symm.trans h

/-- Settles O12: the fault leaves the machine fatal, and a fatal machine drops what follows. -/
theorem sourceFailureIsFatal : Obligations.SourceFailureIsFatal := by
  intro s rest hwf hfatal hin
  refine ⟨_, step_of_sourceFail hwf hfatal hin, rfl, ?_⟩
  rintro i rest' rfl
  exact step_of_fatal hwf rfl rfl

end Sys2Proof.Machine
end

section
/-!
# What a step can do (`40_framing.md` R65 to R75)

The meaning of a wire byte as one list of cases, each with its condition; what every case but the completion of a frame
leaves alone; and with them the obligations O10, O11 and O48.
-/
namespace Sys2Proof.Machine

/-! ## The cases of a byte -/

/-- Everything a byte can do, each case with its condition, line by line of `40_framing.md` R65. -/
inductive ByteStep (b : Byte) (s : State) : State → Prop where
  | ignored (hst : s.st = .idle) (hb : b ≠ syncByte) : ByteStep b s s
  | started (hst : s.st = .idle) (hb : b = syncByte) {t : State} (h : startFrame s = .next t) : ByteStep b s t
  | faulted (hst : s.st = .inFrame) (hfull : s.exp = .known s.buf.length) (hb : b ≠ endMarker) {i : Ident}
      (hi : memReadBE s.buf 1 = some i) : ByteStep b s (raise (.framingFault i s.buf.length) s)
  | escaped (hst : s.st = .inFrame) (hesc : s.esc = true) (hnot : ¬(s.exp = .known s.buf.length ∧ b ≠ endMarker))
      {t : State} (h : append (b ||| 0x80) (s.setEsc false) = .next t) : ByteStep b s t
  | escape (hst : s.st = .inFrame) (hesc : s.esc = false) (hexp : s.exp ≠ .known s.buf.length) (hb : b = escByte) :
      ByteStep b s (s.setEsc true)
  | completed (hst : s.st = .inFrame) (hesc : s.esc = false) (hb : b = endMarker) (hc : s.complete = true)
      {t : State} (h : completeFrame s = .next t) : ByteStep b s t
  | short (hst : s.st = .inFrame) (hesc : s.esc = false) (hb : b = endMarker) (hc : ¬s.complete = true) :
      ByteStep b s (raise (.shortFrame s.buf.length) s)
  | stored (hst : s.st = .inFrame) (hesc : s.esc = false) (hexp : s.exp ≠ .known s.buf.length) (hbesc : b ≠ escByte)
      (hbend : b ≠ endMarker) {t : State} (h : append b s = .next t) : ByteStep b s t

/-- A byte that lines 5 and 6 of `40_framing.md` R65 pass on has one of its four own meanings. -/
theorem byteStep_of_plainByte {b : Byte} {s t : State} (hst : s.st = .inFrame) (hesc : s.esc = false)
    (hnot : ¬(s.exp = .known s.buf.length ∧ b ≠ endMarker)) (h : plainByte b s = .next t) : ByteStep b s t := by
  unfold plainByte at h
  split_ifs at h with hbesc hbend hc
  · cases h
    have hexp : s.exp ≠ .known s.buf.length := fun hfull => hnot ⟨hfull, hbesc ▸ by decide⟩
    exact .escape hst hesc hexp hbesc
  · exact .completed hst hesc hbend hc h
  · cases h
    exact .short hst hesc hbend hc
  · exact .stored hst hesc (fun hfull => hnot ⟨hfull, hbend⟩) hbesc hbend h

theorem byteStep_of_exec {b : Byte} {s t : State} (h : exec (decodeByte b) s = .next t) : ByteStep b s t := by
  cases hst : s.st with
  | idle =>
    rw [exec_byte_idle hst] at h
    split_ifs at h with hb
    · exact .started hst hb h
    · cases h
      exact .ignored hst hb
  | inFrame =>
    rw [exec_byte_inFrame hst] at h
    rcases receive_cases b (plainByte b s) s with ⟨hfull, hb, e⟩ | ⟨hnot, hesc, e⟩ | ⟨hnot, hesc, e⟩ <;> rw [e] at h
    · obtain ⟨i, hi, rfl⟩ := framingFault_cases h
      exact .faulted hst ((full_iff s).mp hfull) hb hi
    · exact .escaped hst hesc (by rwa [full_iff] at hnot) h
    · exact byteStep_of_plainByte hst hesc (by rwa [full_iff] at hnot) h

/-! ## What the framing machine leaves alone -/

/-- The events of a step that completes no frame: nothing, or one framing or source fault (`60_exceptions.md` R124). -/
inductive FramingEvents : List Event → Prop where
  | quiet : FramingEvents []
  | framing (i : Ident) (L : Nat) : FramingEvents [.fault (.framingFault i L)]
  | short (n : Nat) : FramingEvents [.fault (.shortFrame n)]
  | overflow (n : Nat) : FramingEvents [.fault (.bufferOverflow n)]
  | source : FramingEvents [.fault .sourceUnavailable]

/-- What is true of every step that completes no frame: the configuration, Navigation State and `last_gsv` are kept, and
there is at most one event. -/
structure OnlyFramed (s t : State) : Prop where
  config : t.config = s.config
  nav : t.nav = s.nav
  lastGsv : t.lastGsv = s.lastGsv
  events : ∃ es, FramingEvents es ∧ t.events = s.events ++ es

theorem onlyFramed_raise {r : Report} {s : State} (hr : FramingEvents [.fault r]) : OnlyFramed s (raise r s) where
  config := raise_config r s
  nav := by simp [State.nav]
  lastGsv := raise_lastGsv r s
  events := ⟨_, hr, raise_events r s⟩

/-- A write of the framing registers alone. -/
theorem onlyFramed_of_kept {s t : State} (hconfig : t.config = s.config) (hnav : t.nav = s.nav)
    (hgsv : t.lastGsv = s.lastGsv) (hevents : t.events = s.events) : OnlyFramed s t :=
  ⟨hconfig, hnav, hgsv, [], .quiet, by rw [hevents, List.append_nil]⟩

theorem append_onlyFramed {d : Byte} {s t : State} (h : append d s = .next t) : OnlyFramed s t := by
  rcases append_cases d s with ⟨-, e⟩ | ⟨-, -, i, -, e⟩ | ⟨-, -, e⟩ <;> cases e.symm.trans h
  · exact onlyFramed_raise (.overflow _)
  · exact onlyFramed_of_kept rfl rfl rfl rfl
  · exact onlyFramed_of_kept rfl rfl rfl rfl

theorem append_keeps_fatal {d : Byte} {s t : State} (h : append d s = .next t) : t.fatal = s.fatal := by
  rcases append_cases d s with ⟨-, e⟩ | ⟨-, -, i, -, e⟩ | ⟨-, -, e⟩ <;> cases e.symm.trans h <;> rfl

theorem startFrame_onlyFramed {s t : State} (h : startFrame s = .next t) : OnlyFramed s t := by
  unfold startFrame at h
  split_ifs at h
  · obtain ⟨hconfig, hnav, hgsv, hevents⟩ := append_onlyFramed h
    exact ⟨hconfig, hnav, hgsv, hevents⟩
  · cases h
    exact onlyFramed_of_kept rfl rfl rfl rfl

theorem startFrame_keeps_fatal {s t : State} (h : startFrame s = .next t) : t.fatal = s.fatal := by
  unfold startFrame at h
  split_ifs at h
  · exact (append_keeps_fatal h).trans rfl
  · cases h
    rfl

/-- DISPATCH from `TO_IDLE` and the frame's event is all that completion does. -/
theorem completeFrame_onlyDispatched {s t : State} (h : completeFrame s = .next t) :
    OnlyDispatched (s.toIdle.emit (.frame s.frame.bytes s.frame.valid s.frame.scanned)) t :=
  dispatch_onlyDispatched h

/-- A byte completes the frame in the buffer, or only frames. -/
theorem ByteStep.onlyFramed_or_completed {b : Byte} {s t : State} (h : ByteStep b s t) :
    OnlyFramed s t ∨
      (b = endMarker ∧ s.st = .inFrame ∧ s.esc = false ∧ s.complete = true ∧ completeFrame s = .next t) := by
  cases h with
  | ignored hst hb => exact .inl (onlyFramed_of_kept rfl rfl rfl rfl)
  | started hst hb h => exact .inl (startFrame_onlyFramed h)
  | faulted hst hfull hb hi => exact .inl (onlyFramed_raise (.framing _ _))
  | escaped hst hesc hnot h =>
    obtain ⟨hconfig, hnav, hgsv, hevents⟩ := append_onlyFramed h
    exact .inl ⟨hconfig, hnav, hgsv, hevents⟩
  | escape hst hesc hexp hb => exact .inl (onlyFramed_of_kept rfl rfl rfl rfl)
  | completed hst hesc hb hc h => exact .inr ⟨hb, hst, hesc, hc, h⟩
  | short hst hesc hb hc => exact .inl (onlyFramed_raise (.short _))
  | stored hst hesc hexp hbesc hbend h => exact .inl (append_onlyFramed h)

theorem ByteStep.keeps_fatal {b : Byte} {s t : State} (h : ByteStep b s t) : t.fatal = s.fatal := by
  cases h with
  | ignored | faulted | escape | short => rfl
  | started _ _ h => exact startFrame_keeps_fatal h
  | escaped _ _ _ h => exact (append_keeps_fatal h).trans rfl
  | completed _ _ _ _ h => exact (completeFrame_onlyDispatched h).fatal
  | stored _ _ _ _ _ h => exact append_keeps_fatal h

/-- A step that completes a frame: END is taken in `InFrame`, unescaped, with the frame complete in the buffer. -/
structure FrameCompleted (s t : State) (n : Nat) (rest : List Input) : Prop where
  inputs : s.inputs = .byte endMarker n :: rest
  fatal : s.fatal = false
  st : s.st = .inFrame
  esc : s.esc = false
  complete : s.complete = true
  answers : completeFrame (s.clearEvents.takeByte rest n) = .next t

/-- Everything a step can do to the configuration, Navigation State, `last_gsv` and the event list. -/
theorem step_onlyFramed_or_completed {s t : State} (h : step s = .next t) :
    OnlyFramed s.clearEvents t ∨ ∃ n rest, FrameCompleted s t n rest := by
  obtain ⟨-, ⟨-, rfl⟩ | ⟨i, rest, -, -, rfl⟩ | ⟨rest, -, -, rfl⟩ | ⟨b, n, rest, hin, hfatal, hexec⟩⟩ := step_cases h
  · exact .inl (onlyFramed_of_kept rfl rfl rfl rfl)
  · exact .inl (onlyFramed_of_kept rfl rfl rfl rfl)
  · exact .inl ⟨rfl, rfl, rfl, _, .source, rfl⟩
  · rcases (byteStep_of_exec hexec).onlyFramed_or_completed with hframed | ⟨rfl, hst, hesc, hc, hanswers⟩
    · exact .inl ⟨hframed.config, hframed.nav, hframed.lastGsv, hframed.events⟩
    · exact .inr ⟨n, rest, hin, hfatal, hst, hesc, hc, hanswers⟩

/-! ## The obligations -/

/-- Settles O10: neither the framing machine nor DISPATCH writes the configuration. -/
theorem configNeverWritten : Obligations.ConfigNeverWritten := by
  intro s t h
  rcases step_onlyFramed_or_completed h with hframed | ⟨n, rest, hend⟩
  · exact hframed.config
  · exact (completeFrame_onlyDispatched hend.answers).config

/-- Settles O11: of the four kinds of step only the source's failure writes the bit. -/
theorem fatalBitIsSticky : Obligations.FatalBitIsSticky := by
  refine ⟨resetWith_fatal, ?set, fun s i rest hwf hfatal hin => step_of_fatal hwf hfatal hin⟩
  case set =>
    intro s t h
    obtain ⟨-, ⟨hin, rfl⟩ | ⟨i, rest, -, hfatal, rfl⟩ | ⟨rest, hin, -, rfl⟩ | ⟨b, n, rest, hin, -, hexec⟩⟩ :=
      step_cases h
    · simp [hin]
    · simp [hfatal]
    · simp [hin, raise]
    · simp [(byteStep_of_exec hexec).keeps_fatal, hin]

/-- A complete frame that is not scanned has its known length. -/
theorem exp_of_complete {s : State} (hc : s.complete = true) (hscan : s.scanning = false) :
    3 ≤ s.buf.length ∧ s.exp = .known s.buf.length := by
  obtain ⟨hlen, hexp⟩ := (complete_iff s).mp hc
  refine ⟨hlen, hexp.resolve_left fun hunknown => ?_⟩
  simp [State.scanning, hunknown] at hscan

/-- A scanned frame is dropped: Navigation State and `last_gsv` stay. -/
theorem dispatch_scanned_keeps_nav {f : Frame} {s t : State} (hscan : f.scanned = true) (h : dispatch f s = .next t) :
    t.nav = s.nav ∧ t.lastGsv = s.lastGsv := by
  obtain ⟨i, s1, hi, -, -⟩ := dispatch_cases h
  rw [dispatch_eq hi, if_pos hscan] at h
  cases h
  exact ⟨rfl, rfl⟩

/-- Settles O48: a step that only frames changes neither, and a scanned frame is dropped. -/
theorem navChangesOnlyAtCompletion : Obligations.NavChangesOnlyAtCompletion := by
  intro s t h hchange
  rcases step_onlyFramed_or_completed h with hframed | ⟨n, rest, hend⟩
  · rcases hchange with hnav | hgsv
    · exact absurd hframed.nav hnav
    · exact absurd hframed.lastGsv hgsv
  · have hscan : s.scanning = false := by
      by_contra hscan
      rw [Bool.not_eq_false] at hscan
      obtain ⟨hnav, hgsv⟩ := dispatch_scanned_keeps_nav (f := s.frame) hscan hend.answers
      exact hchange.elim (· hnav) (· hgsv)
    obtain ⟨hlen, hexp⟩ := exp_of_complete hend.complete hscan
    exact ⟨hend.fatal, hend.st, hend.esc, hlen, hexp, n, rest, hend.inputs⟩

end Sys2Proof.Machine
end

section
/-!
# The accepted configurations (`00_scope.md` R5)

The length table as a map, `Config.wf` as its four bounds, and with them the obligations O4, O5 and O58.
-/
namespace Sys2Proof

/-- On a list with one entry an identifier, the lookup finds exactly the entries. -/
theorem Config.lengthOf_eq_some_iff {c : Config} (hnodup : (c.lenTable.map Prod.fst).Nodup) (i : Ident) (L : Nat) :
    c.lengthOf i = some L ↔ (i, L) ∈ c.lenTable := by
  rw [Config.lengthOf, List.lookup_eq_some_iff]
  constructor
  · rintro ⟨before, after, e, -⟩
    simp [e]
  · intro hmem
    obtain ⟨before, after, e⟩ := List.append_of_mem hmem
    refine ⟨before, after, e, fun p hp => ?_⟩
    rw [e, List.map_append, List.map_cons, List.nodup_middle, List.nodup_cons] at hnodup
    rw [bne_iff_ne]
    rintro rfl
    have hkey : p.1 ∈ before.map Prod.fst := List.mem_map_of_mem hp
    exact hnodup.1 (List.mem_append_left _ hkey)

/-- A bound on every entry of the table is a bound on every length it gives. -/
theorem Config.lenTable_all_iff {c : Config} (hnodup : (c.lenTable.map Prod.fst).Nodup) (P : Nat → Prop) :
    (∀ e ∈ c.lenTable, P e.2) ↔ ∀ i L, c.lengthOf i = some L → P L := by
  simp only [Config.lengthOf_eq_some_iff hnodup, Prod.forall]

theorem FieldSpec.inFrame_iff (L : Nat) (f : FieldSpec) :
    f.inFrame L = true ↔ 3 ≤ f.off ∧ f.off + f.width ≤ L := by
  simp only [FieldSpec.inFrame, Bool.and_eq_true, decide_eq_true_eq]

/-- The condition of `00_scope.md` R5(c), (d) on the fields of one identifier. -/
theorem Config.layoutOk_iff (c : Config) (i : Ident) (fields : List FieldSpec) :
    c.layoutOk i fields = true ↔
      ∀ L, c.lengthOf i = some L → ∀ f ∈ fields, 3 ≤ f.off ∧ f.off + f.width ≤ L := by
  cases hL : c.lengthOf i <;> simp [Config.layoutOk, hL, FieldSpec.inFrame_iff]

/-- Every length of the table is within the bounds of `00_scope.md` R5(b). -/
theorem Config.lengthOf_bounds {c : Config} (hwf : c.wf = true) {i : Ident} {L : Nat} (hL : c.lengthOf i = some L) :
    4 ≤ L ∧ L ≤ c.bufMax := by
  obtain ⟨-, hlen, hnodup, -⟩ := Config.wf_parts hwf
  exact (Config.lenTable_all_iff hnodup fun L => 4 ≤ L ∧ L ≤ c.bufMax).mp hlen i L hL

/-- Settles O4: the first two parts of a well-formed configuration. -/
theorem wellFormedConfigBounds : Obligations.WellFormedConfigBounds := by
  intro c hwf
  obtain ⟨hcap, -⟩ := Config.wf_parts hwf
  exact ⟨hcap, fun i L hL => Config.lengthOf_bounds hwf hL⟩

/-- Settles O5: the identifier selects one of the five routines, whose fields end inside the frame, or none. -/
theorem framesOfTableLengthDecode : Obligations.FramesOfTableLengthDecode := fun _ _ _ hwf hi hL =>
  decodeFrame_answers hwf hi hL

/-- Settles O58: the tests of `Config.wf` one by one, those on entries read as tests on the lengths they give. -/
theorem configWellFormedIff : Obligations.ConfigWellFormedIff := by
  intro c
  have hparts : c.wf = true ↔
      4 ≤ c.bufMax ∧ (∀ e ∈ c.lenTable, 4 ≤ e.2 ∧ e.2 ≤ c.bufMax) ∧ (c.lenTable.map Prod.fst).Nodup ∧
        ∀ e ∈ [(identFastfix, c.layout.fastfix.fields), (identGpsfix, c.layout.gpsfix.fields),
          (identUtcconst, c.layout.utcconst.fields), (identUtctime, c.layout.utctime.fields),
          (identChanstat, c.layout.chanstat.fields)], c.layoutOk e.1 e.2 = true := by
    simp only [Config.wf, Bool.and_eq_true, decide_eq_true_eq, List.all_eq_true, and_assoc, List.forall_mem_cons,
      List.not_mem_nil, false_imp_iff, implies_true, and_true]
  have hlengths (hnodup : (c.lenTable.map Prod.fst).Nodup) :=
    Config.lenTable_all_iff hnodup fun L => 4 ≤ L ∧ L ≤ c.bufMax
  simp only [hparts, Config.layoutOk_iff, Prod.forall]
  constructor
  · rintro ⟨hcap, hlen, hnodup, hfields⟩
    exact ⟨hcap, hnodup, (hlengths hnodup).mp fun e he => hlen e.1 e.2 he, hfields⟩
  · rintro ⟨hcap, hnodup, hlen, hfields⟩
    exact ⟨hcap, fun i L he => (hlengths hnodup).mpr hlen (i, L) he, hnodup, hfields⟩

end Sys2Proof
end

section
/-!
# The invariant (`10_state.md` R27)

That the invariant holds after reset, that every step keeps it and that from it every step answers: the obligations O7,
O8 and O9. A step ends in the one `Idle` configuration, or in `InFrame` with a frame collected so far.
-/
namespace Sys2Proof.Machine

/-! ## The two kinds of state that a step ends in -/

theorem MachineInv.of_idleClear {t : State} (hwf : t.config.wf = true) (h : IdleClear t) : MachineInv t := by
  obtain ⟨hst, hesc, hbuf, hexp, hsum⟩ := h
  constructor
  · exact hwf
  · exact fun _ => ⟨hesc, hbuf, hexp⟩
  · simp [Memory.wf, hbuf]
  · simp [hexp, hst]
  · simp [hexp]
  · simp [hexp]
  · simp [hst]
  · exact fun _ => hst
  · simp [hsum, hbuf, byteSum]
  · simp [hbuf]

theorem expectedFor_ne_undetermined (c : Config) (i : Ident) : expectedFor c i ≠ .undetermined := by
  unfold expectedFor
  split <;> simp

/-- A frame collected so far, no escape pending: `exp` is what LOOKUP makes of the buffer. -/
theorem MachineInv.of_inFrame {t : State} (hwf : t.config.wf = true) (hst : t.st = .inFrame) (hesc : t.esc = false)
    (hfatal : t.fatal = false) (hcap : t.buf.length ≤ t.config.bufMax) (hsum : t.sum = byteSum t.buf)
    (hsync : t.config.storeSync = true → t.buf.head? = some syncByte)
    (hshort : t.buf.length < 3 → t.exp = .undetermined)
    (hlookup : ∀ i, 3 ≤ t.buf.length → memReadBE t.buf 1 = some i → t.exp = expectedFor t.config i)
    (hknown : ∀ L, t.exp = .known L → t.buf.length ≤ L) : MachineInv t := by
  have hlong (hlen : 3 ≤ t.buf.length) : t.exp ≠ .undetermined := by
    obtain ⟨i, hi⟩ := memReadBE_isSome (bytes := t.buf) (off := 1) (by omega)
    exact hlookup i hlen hi ▸ expectedFor_ne_undetermined t.config i
  constructor
  · exact hwf
  · simp [hst]
  · simpa [Memory.wf] using hcap
  · constructor
    · exact fun hexp => .inr (Nat.lt_of_not_le fun hlen => hlong hlen hexp)
    · exact fun h => hshort (h.resolve_left (by simp [hst]))
  · intro L hL
    refine ⟨Nat.le_of_not_lt fun hlen => ?_, hknown L hL⟩
    cases (hshort hlen).symm.trans hL
  · exact fun _ _ _ => hesc
  · exact fun hstore _ => hsync hstore
  · simp [hfatal]
  · exact hsum
  · exact hlookup

/-- The invariant does not speak of the model's own three fields. -/
theorem MachineInv.withInputs {s : State} (h : MachineInv s) (inputs : List Input) (now : Nat) (events : List Event) :
    MachineInv { s with inputs := inputs, now := now, events := events } :=
  ⟨h.config_wf, h.idle_clear, h.within_capacity, h.undetermined_iff, h.known_range, h.full_not_escaped, h.sync_stored,
    h.fatal_idle, h.sum_eq, h.exp_looked_up⟩

/-! ## The operations -/

/-- A framing fault, a short frame and an overflow end in `Idle`. -/
theorem raise_idleClear {r : Report} (hr : FramingEvents [.fault r]) (s : State) : IdleClear (raise r s) := by
  cases hr <;> exact ⟨rfl, rfl, rfl, rfl, rfl⟩

theorem raise_inv {r : Report} {s : State} (hr : FramingEvents [.fault r]) (hinv : MachineInv s) :
    MachineInv (raise r s) :=
  .of_idleClear ((raise_config r s).symm ▸ hinv.config_wf) (raise_idleClear hr s)

/-- Completion ends in `Idle`: DISPATCH keeps what `TO_IDLE` wrote. -/
theorem completeFrame_idleClear {s t : State} (h : completeFrame s = .next t) : IdleClear t := by
  have hkept := completeFrame_onlyDispatched h
  exact ⟨hkept.st, hkept.esc, hkept.buf, hkept.exp, hkept.sum⟩

theorem not_fatal_of_inFrame {s : State} (hinv : MachineInv s) (hst : s.st = .inFrame) : s.fatal = false := by
  by_contra hfatal
  rw [Bool.not_eq_false] at hfatal
  cases hst.symm.trans (hinv.fatal_idle hfatal)

/-- An escape may be pending unless the frame is full. -/
theorem setEsc_inv {s : State} (hinv : MachineInv s) (hst : s.st = .inFrame) (e : Bool)
    (hexp : e = true → s.exp ≠ .known s.buf.length) : MachineInv (s.setEsc e) where
  config_wf := hinv.config_wf
  idle_clear hidle := by cases hst.symm.trans hidle
  within_capacity := hinv.within_capacity
  undetermined_iff := hinv.undetermined_iff
  known_range := hinv.known_range
  full_not_escaped := by
    rintro L hL rfl
    exact Bool.eq_false_iff.mpr fun he => hexp he hL
  sync_stored := hinv.sync_stored
  fatal_idle := hinv.fatal_idle
  sum_eq := hinv.sum_eq
  exp_looked_up := hinv.exp_looked_up

/-- A stored byte, with `exp` as LOOKUP makes it at the third byte and kept at any other. -/
theorem pushByte_inv {d : Byte} {x : Expected} {s : State} (hinv : MachineInv s) (hst : s.st = .inFrame)
    (hesc : s.esc = false) (hroom : s.buf.length ≠ s.config.bufMax)
    (hshort : s.buf.length + 1 < 3 → x = .undetermined)
    (hlookup : ∀ i, 3 ≤ s.buf.length + 1 → memReadBE (s.buf ++ [d]) 1 = some i → x = expectedFor s.config i)
    (hknown : ∀ L, x = .known L → s.buf.length + 1 ≤ L) : MachineInv ((s.pushByte d).setExp x) := by
  have hcap : s.buf.length ≤ s.config.bufMax := by simpa [Memory.wf] using hinv.within_capacity
  have hnotFatal : s.fatal = false := not_fatal_of_inFrame hinv hst
  apply MachineInv.of_inFrame
  case hwf => exact hinv.config_wf
  case hst => exact hst
  case hesc => exact hesc
  case hfatal => exact hnotFatal
  case hcap => simp; omega
  case hsum => simp [byteSum_append_singleton, hinv.sum_eq]
  case hsync => exact fun hstore => by simp [hinv.sync_stored hstore hst]
  case hshort => simpa using hshort
  case hlookup => simpa using hlookup
  case hknown => simpa using hknown

theorem append_inv {d : Byte} {s t : State} (hinv : MachineInv s) (hst : s.st = .inFrame) (hesc : s.esc = false)
    (hexp : s.exp ≠ .known s.buf.length) (h : append d s = .next t) : MachineInv t := by
  rcases append_cases d s with ⟨-, e⟩ | ⟨hroom, hlen, i, hi, e⟩ | ⟨hroom, hlen, e⟩ <;> cases e.symm.trans h
  · exact raise_inv (.overflow _) hinv
  · refine pushByte_inv hinv hst hesc hroom ?_ ?_ ?_
    · omega
    · intro j _ hj
      rw [Option.some.inj (hi.symm.trans hj)]
    · intro L hL
      have hbounds := Config.lengthOf_bounds hinv.config_wf (lengthOf_of_expectedFor hL)
      omega
  · refine pushByte_inv (x := s.exp) hinv hst hesc hroom ?_ ?_ ?_
    · exact fun hshort => hinv.undetermined_iff.mpr (.inr (by omega))
    · intro i hlong hi
      rw [memReadBE_append (by omega)] at hi
      exact hinv.exp_looked_up i (by omega) hi
    · intro L hL
      obtain ⟨-, hle⟩ := hinv.known_range L hL
      have hne : s.buf.length ≠ L := fun e => hexp (e ▸ hL)
      omega

theorem startFrame_inv {s t : State} (hwf : s.config.wf = true) (hfatal : s.fatal = false)
    (h : startFrame s = .next t) : MachineInv t := by
  obtain ⟨hcap, -⟩ := Config.wf_parts hwf
  cases (startFrame_eq hcap).symm.trans h
  cases hstore : s.config.storeSync
  · apply MachineInv.of_inFrame <;> simp [hwf, hfatal, hstore, byteSum]
  · apply MachineInv.of_inFrame <;> simp [hwf, hfatal, byteSum]
    omega

/-! ## The steps -/

theorem ByteStep.keeps_inv {b : Byte} {s t : State} (h : ByteStep b s t) (hinv : MachineInv s)
    (hfatal : s.fatal = false) : MachineInv t := by
  cases h with
  | ignored hst hb => exact hinv
  | started hst hb h => exact startFrame_inv hinv.config_wf hfatal h
  | faulted hst hfull hb hi => exact raise_inv (.framing _ _) hinv
  | escaped hst hesc hnot h =>
    have hexp : s.exp ≠ .known s.buf.length := fun hfull => by
      simpa [hesc] using hinv.full_not_escaped _ hfull rfl
    exact append_inv (setEsc_inv hinv hst false (by simp)) hst rfl hexp h
  | escape hst hesc hexp hb => exact setEsc_inv hinv hst true fun _ => hexp
  | completed hst hesc hb hc h =>
    have hconfig : t.config = s.config := (completeFrame_onlyDispatched h).config
    exact .of_idleClear (hconfig ▸ hinv.config_wf) (completeFrame_idleClear h)
  | short hst hesc hb hc => exact raise_inv (.short _) hinv
  | stored hst hesc hexp hbesc hbend h => exact append_inv hinv hst hesc hexp h

/-- Settles O7: reset is the `Idle` configuration. -/
theorem invHoldsAfterReset : Obligations.InvHoldsAfterReset :=
  ⟨by decide, fun _ hwf => .of_idleClear hwf ⟨rfl, rfl, rfl, rfl, rfl⟩⟩

/-- Settles O8: a step without a byte leaves the framing registers or ends in `Idle`, and a byte keeps the invariant in
each of its cases. -/
theorem stepKeepsInv : Obligations.StepKeepsInv := by
  intro s t hinv h
  obtain ⟨-, ⟨-, rfl⟩ | ⟨i, rest, -, -, rfl⟩ | ⟨rest, -, -, rfl⟩ | ⟨b, n, rest, -, hfatal, hexec⟩⟩ := step_cases h
  · exact hinv.withInputs _ _ _
  · exact hinv.withInputs _ _ _
  · exact .of_idleClear hinv.config_wf ⟨rfl, rfl, rfl, rfl, rfl⟩
  · exact (byteStep_of_exec hexec).keeps_inv (hinv.withInputs rest n []) hfatal

/-! ## From the invariant every step answers -/

theorem completeFrame_answers {s : State} (hinv : MachineInv s) (hc : s.complete = true) :
    ∃ t, completeFrame s = .next t := by
  obtain ⟨hlen, hexp⟩ := (complete_iff s).mp hc
  obtain ⟨i, hi⟩ := memReadBE_isSome (bytes := s.buf) (off := 1) (by omega)
  refine dispatch_answers (f := s.frame) hi ((complete_frame_decodes hinv hlen hexp hi).imp_left fun hunknown => ?_)
  simp [State.frame, State.scanning, hunknown]

theorem plainByte_answers {s : State} (hinv : MachineInv s) (b : Byte) : ∃ t, plainByte b s = .next t := by
  unfold plainByte
  split_ifs with _ _ hc
  · exact ⟨_, rfl⟩
  · exact completeFrame_answers hinv hc
  · exact ⟨_, rfl⟩
  · obtain ⟨t, ht, -⟩ := appendStoresOverflowsOrLooksUp s b
    exact ⟨t, ht⟩

theorem exec_byte_answers {s : State} (hinv : MachineInv s) (b : Byte) : ∃ t, exec (decodeByte b) s = .next t := by
  obtain ⟨hcap, -⟩ := Config.wf_parts hinv.config_wf
  cases hst : s.st with
  | idle =>
    rw [exec_byte_idle hst]
    split_ifs
    · exact ⟨_, startFrame_eq hcap⟩
    · exact ⟨s, rfl⟩
  | inFrame =>
    rw [exec_byte_inFrame hst]
    rcases receive_cases b (plainByte b s) s with ⟨hfull, -, e⟩ | ⟨-, -, e⟩ | ⟨-, -, e⟩ <;> rw [e]
    · obtain ⟨hlen, -⟩ := hinv.known_range _ ((full_iff s).mp hfull)
      obtain ⟨i, hi⟩ := memReadBE_isSome (bytes := s.buf) (off := 1) (by omega)
      exact ⟨_, by rw [framingFault, hi]⟩
    · obtain ⟨t, ht, -⟩ := appendStoresOverflowsOrLooksUp (s.setEsc false) (b ||| 0x80)
      exact ⟨t, ht⟩
    · exact plainByte_answers hinv b

/-- Settles O9: input by input, and for a byte by the reads that the invariant keeps inside the buffer. -/
theorem stepTotalUnderInv : Obligations.StepTotalUnderInv := by
  intro s hinv
  have hwf := hinv.config_wf
  cases hin : s.inputs with
  | nil => exact ⟨_, step_of_no_input hwf hin⟩
  | cons i rest =>
    cases hfatal : s.fatal with
    | true => exact ⟨_, step_of_fatal hwf hfatal hin⟩
    | false =>
      cases i with
      | sourceFail => exact ⟨_, step_of_sourceFail hwf hfatal hin⟩
      | byte b n =>
        rw [step_of_byte hwf hfatal hin]
        exact exec_byte_answers (hinv.withInputs rest n []) b

end Sys2Proof.Machine
end

section
/-!
# Stuffing (`30_encoding.md` R46 to R49)

The two forms a byte takes on the wire, the escape undone, and with them the obligation O44.
-/
namespace Sys2Proof

section
variable {d : Byte}

theorem special_cases (hd : isSpecial d = true) : d = escByte ∨ d = syncByte ∨ d = endMarker := by
  simpa [isSpecial, or_assoc] using hd

/-- The escape of a special byte is undone by the bit that the receiver sets (`30_encoding.md` R47, R48). -/
theorem special_unescaped (hd : isSpecial d = true) : (d &&& 0x7F) ||| 0x80 = d := by
  rcases special_cases hd with rfl | rfl | rfl <;> decide

theorem stuff_cons_special (hd : isSpecial d = true) (r : List Byte) :
    stuff (d :: r) = escByte :: (d &&& 0x7F) :: stuff r := by
  rw [stuff, if_pos hd]

theorem stuff_cons_plain (hd : isSpecial d = false) (r : List Byte) : stuff (d :: r) = d :: stuff r := by
  rw [stuff, if_neg (by simp [hd])]

theorem unstuffFrom_escape (w : List Byte) : unstuffFrom false (escByte :: w) = unstuffFrom true w := by
  rw [unstuffFrom, if_pos rfl]

theorem unstuffFrom_plain (hd : d ≠ escByte) (w : List Byte) :
    unstuffFrom false (d :: w) = d :: unstuffFrom false w := by
  rw [unstuffFrom, if_neg hd]

end

theorem unstuff_stuff (p : List Byte) : unstuff (stuff p) = p := by
  unfold unstuff
  induction p with
  | nil => rfl
  | cons d p ih =>
    cases hd : isSpecial d with
    | true => rw [stuff_cons_special hd, unstuffFrom_escape, unstuffFrom, special_unescaped hd, ih]
    | false =>
      have hne : d ≠ escByte := by
        rintro rfl
        cases hd
      rw [stuff_cons_plain hd, unstuffFrom_plain hne, ih]

/-- The bytes that a canonical escape is followed by are those that stuffing writes (`30_encoding.md` R49(b)). -/
theorem canonical_escaped_iff (x : Byte) :
    (isSpecial (x ||| 0x80) = true ∧ (x ||| 0x80) &&& 0x7F = x) ↔ (x == 0x00 || x == 0x01 || x == 0x02) = true := by
  revert x
  decide

/-- The wire form of a byte begins with an escape exactly when the byte is special. -/
theorem stuff_cons_eq_escape_iff (d x : Byte) (p w : List Byte) :
    stuff (d :: p) = escByte :: x :: w ↔ (isSpecial d = true ∧ d &&& 0x7F = x) ∧ stuff p = w := by
  cases hd : isSpecial d with
  | true => simp only [stuff_cons_special hd, List.cons.injEq, true_and]
  | false =>
    have hne : d ≠ escByte := by
      rintro rfl
      cases hd
    simp only [stuff_cons_plain hd, List.cons.injEq, hne, Bool.false_eq_true, false_and]

/-- Stuffing a byte that no escape precedes gives it back exactly when it is neither a sync marker nor an END. -/
theorem stuff_cons_eq_self_iff {x : Byte} (hx : x ≠ escByte) (p w : List Byte) :
    stuff (x :: p) = x :: w ↔ (x ≠ syncByte ∧ x ≠ endMarker) ∧ stuff p = w := by
  cases hspecial : isSpecial x with
  | true =>
    have hmarker : x = syncByte ∨ x = endMarker := (special_cases hspecial).resolve_left hx
    simp only [stuff_cons_special hspecial, List.cons.injEq, hx.symm, false_and, ne_eq, ← not_or, hmarker,
      not_true_eq_false]
  | false =>
    have hsync : x ≠ syncByte := by rintro rfl; cases hspecial
    have hend : x ≠ endMarker := by rintro rfl; cases hspecial
    simp only [stuff_cons_plain hspecial, List.cons.injEq, hsync, hend, ne_eq, not_false_eq_true, true_and]

/-- From either state of the scan, stuffing restores the wire list exactly when it is canonical; in the second an escape
has been read. -/
theorem stuff_unstuffFrom_iff (w : List Byte) :
    (stuff (unstuffFrom false w) = w ↔ canonicalFrom false w = true) ∧
      (stuff (unstuffFrom true w) = escByte :: w ↔ canonicalFrom true w = true) := by
  induction w with
  | nil => exact ⟨by simp [unstuffFrom, stuff, canonicalFrom], by simp [unstuffFrom, stuff, canonicalFrom]⟩
  | cons x w ih =>
    obtain ⟨ihplain, ihescaped⟩ := ih
    constructor
    · by_cases hx : x = escByte
      · subst hx
        rw [unstuffFrom_escape, ihescaped, canonicalFrom, if_pos rfl]
      · rw [unstuffFrom_plain hx, stuff_cons_eq_self_iff hx, ihplain, canonicalFrom, if_neg hx]
        simp only [Bool.and_eq_true, bne_iff_ne]
    · rw [unstuffFrom, stuff_cons_eq_escape_iff, canonical_escaped_iff, ihplain, canonicalFrom, Bool.and_eq_true]

/-- Settles O44: each direction by induction on the list, byte by byte. -/
theorem stuffingRoundTrips : Obligations.StuffingRoundTrips :=
  ⟨unstuff_stuff, fun w => (stuff_unstuffFrom_iff w).1⟩

end Sys2Proof
end

section
/-!
# A frame on the wire is delivered (`30_encoding.md` R46 to R48, `40_framing.md` R65 to R75)

The state in which the bytes `q` of a frame have been collected, one lemma for each kind of wire byte that extends `q`,
the run over a stuffed list, and with them the obligation O46.
-/
namespace Sys2Proof.Machine

/-! ## Runs -/

theorem run_succ_of_next {s t : State} (h : step s = .next t) (k : Nat) :
    Host.Core.run Sys2Proof.core (k + 1) s = Host.Core.run Sys2Proof.core k t := by
  have hstep : Sys2Proof.core.step s = .next t := h
  simp only [Host.Core.run, hstep]

theorem run_one (s : State) : Host.Core.run Sys2Proof.core 1 s = step s := by
  have hstep : Sys2Proof.core.step s = step s := rfl
  simp only [Host.Core.run, hstep]
  cases step s <;> rfl

/-! ## The state after some bytes of a frame -/

/-- `exp` as LOOKUP makes it from the bytes collected so far (`40_framing.md` R75). -/
def lookedUp (c : Config) (q : List Byte) : Expected :=
  match memReadBE q 1 with
  | some i => expectedFor c i
  | none => .undetermined

theorem lookedUp_of_ident {c : Config} {q : List Byte} {i : Ident} (hi : memReadBE q 1 = some i) :
    lookedUp c q = expectedFor c i := by
  simp only [lookedUp, hi]

theorem lookedUp_of_short {c : Config} {q : List Byte} (hlen : q.length < 3) : lookedUp c q = .undetermined := by
  have hi : memReadBE q 1 = none := by
    by_contra h
    obtain ⟨i, hi⟩ := Option.ne_none_iff_exists'.mp h
    have := length_of_memReadBE hi
    omega
  simp only [lookedUp, hi]

theorem lookedUp_append {c : Config} {q : List Byte} (hlen : 3 ≤ q.length) (more : List Byte) :
    lookedUp c (q ++ more) = lookedUp c q := by
  simp only [lookedUp, memReadBE_append (bytes := q) (more := more) (off := 1) (by omega)]

/-- In `InFrame` with the bytes `q` collected and no escape pending. -/
def collecting (s : State) (q : List Byte) (inputs : List Input) (now : Nat) : State :=
  { s with
    st := .inFrame, esc := false, buf := q, exp := lookedUp s.config q, sum := byteSum q, inputs := inputs, now := now,
    events := [] }

/-- APPEND with room in the buffer collects one byte more. -/
theorem append_collecting {s : State} {q : List Byte} (hroom : q.length < s.config.bufMax) (d : Byte)
    (inputs : List Input) (now : Nat) :
    append d (collecting s q inputs now) = .next (collecting s (q ++ [d]) inputs now) := by
  rcases append_cases d (collecting s q inputs now) with ⟨hfull, -⟩ | ⟨-, -, i, hi, e⟩ | ⟨-, hlen, e⟩
  · exact absurd hfull hroom.ne
  · have hexp : lookedUp s.config (q ++ [d]) = expectedFor s.config i := lookedUp_of_ident hi
    rw [e]
    simp [collecting, State.pushByte, State.setExp, byteSum_append_singleton, hexp]
  · have hne : q.length ≠ 2 := hlen
    have hkept : lookedUp s.config (q ++ [d]) = lookedUp s.config q := by
      rcases Nat.lt_or_gt_of_ne hne with hshort | hlong
      · rw [lookedUp_of_short (by simp; omega), lookedUp_of_short (by omega)]
      · exact lookedUp_append hlong [d]
    rw [e]
    simp [collecting, State.pushByte, byteSum_append_singleton, hkept]

/-! ## One wire byte -/

/-- What the wire form of `p` needs to be delivered: a machine that runs, an identifier, room in the buffer, and the
table's length if the table has one. -/
structure Deliverable (s : State) (p : List Byte) (i : Ident) : Prop where
  wf : s.config.wf = true
  fatal : s.fatal = false
  ident : memReadBE p 1 = some i
  fits : p.length ≤ s.config.bufMax
  tableLength : ∀ L, s.config.lengthOf i = some L → p.length = L

section
variable {s : State} {p q r : List Byte} {d : Byte} {i : Ident}

/-- Before its last byte a frame of known length does not fill the buffer. -/
theorem Deliverable.not_full (h : Deliverable s p i) (hp : p = q ++ d :: r) :
    lookedUp s.config q ≠ .known q.length := by
  intro hexp
  by_cases hlen : q.length < 3
  · rw [lookedUp_of_short hlen] at hexp
    cases hexp
  · have hsame : lookedUp s.config q = expectedFor s.config i := by
      rw [← lookedUp_of_ident h.ident, hp, lookedUp_append (by omega)]
    have htable := h.tableLength _ (lengthOf_of_expectedFor (hsame.symm.trans hexp))
    simp [hp] at htable

theorem Deliverable.room (h : Deliverable s p i) (hp : p = q ++ d :: r) : q.length < s.config.bufMax := by
  have hfits := h.fits
  simp only [hp, List.length_append, List.length_cons] at hfits
  omega

/-- A step while collecting runs the byte on the same collected bytes. -/
theorem step_collecting (h : Deliverable s p i) (b : Byte) (n now : Nat) (inputs : List Input) :
    step (collecting s q (.byte b n :: inputs) now) = exec (decodeByte b) (collecting s q inputs n) :=
  step_of_byte (s := collecting s q (.byte b n :: inputs) now) h.wf h.fatal rfl

/-- A byte without a framing meaning is collected as it is. -/
theorem step_collecting_plain (h : Deliverable s p i) (hp : p = q ++ d :: r) (hd : isSpecial d = false)
    (n now : Nat) (inputs : List Input) :
    step (collecting s q (.byte d n :: inputs) now) = .next (collecting s (q ++ [d]) inputs n) := by
  have hne : d ≠ escByte ∧ d ≠ endMarker := by
    constructor <;> rintro rfl <;> cases hd
  have hnot : ¬((collecting s q inputs n).exp = .known (collecting s q inputs n).buf.length ∧ d ≠ endMarker) :=
    fun hfull => h.not_full hp hfull.1
  rw [step_collecting h]
  exact (exec_byte_inFrame rfl d).trans <| (receive_of_plain hnot rfl).trans <|
    (plainByte_data hne.1 hne.2 _).trans (append_collecting (h.room hp) d inputs n)

/-- An escape byte is not stored and leaves the flag. -/
theorem step_collecting_escape (h : Deliverable s p i) (hp : p = q ++ d :: r) (n now : Nat) (inputs : List Input) :
    step (collecting s q (.byte escByte n :: inputs) now) = .next ((collecting s q inputs n).setEsc true) := by
  rw [step_collecting h]
  exact escSetsFlag (collecting s q inputs n) rfl rfl (h.not_full hp)

/-- After an escape the special byte is collected. -/
theorem step_collecting_escaped (h : Deliverable s p i) (hp : p = q ++ d :: r) (hd : isSpecial d = true)
    (n now : Nat) (inputs : List Input) :
    step ((collecting s q (.byte (d &&& 0x7F) n :: inputs) now).setEsc true) =
      .next (collecting s (q ++ [d]) inputs n) := by
  have hstep := step_of_byte (s := (collecting s q (.byte (d &&& 0x7F) n :: inputs) now).setEsc true) h.wf h.fatal rfl
  have hnot : ¬(((collecting s q inputs n).setEsc true).exp =
      .known ((collecting s q inputs n).setEsc true).buf.length ∧ d &&& 0x7F ≠ endMarker) :=
    fun hfull => h.not_full hp hfull.1
  refine hstep.trans <| (exec_byte_inFrame rfl _).trans <| (receive_of_escaped hnot rfl).trans ?_
  rw [escapedByte, special_unescaped hd]
  exact append_collecting (h.room hp) d inputs n

/-- The sync marker starts the frame, and is its first byte where `STORE_SYNC` says so. -/
theorem step_start (h : Deliverable s p i) (hst : s.st = .idle) {n : Nat} {inputs : List Input}
    (hin : s.inputs = .byte syncByte n :: inputs) :
    step s = .next (collecting s (if s.config.storeSync then [syncByte] else []) inputs n) := by
  rw [step_of_byte h.wf h.fatal hin]
  refine (syncStartsFrame (s.clearEvents.takeByte inputs n) h.wf hst).trans ?_
  cases hstore : s.config.storeSync <;>
    simp [collecting, hstore, State.clearEvents, State.takeByte, lookedUp_of_short, byteSum]

end

/-! ## The stuffed bytes, and END -/

/-- The stuffed rest of a frame, one step a wire byte, collects the frame. -/
theorem run_collecting {s : State} {p : List Byte} {i : Ident} (h : Deliverable s p i) (r : List Byte) :
    ∀ (q : List Byte) (ns : List Nat) (tail : List Input) (now k : Nat),
      p = q ++ r → ns.length = (stuff r).length →
      ∃ now', Host.Core.run Sys2Proof.core ((stuff r).length + k)
          (collecting s q (List.zipWith .byte (stuff r) ns ++ tail) now) =
        Host.Core.run Sys2Proof.core k (collecting s p tail now') := by
  induction r with
  | nil =>
    intro q ns tail now k hp hns
    rw [List.append_nil] at hp
    subst hp
    exact ⟨now, by simp [stuff]⟩
  | cons d r ih =>
    intro q ns tail now k hp hns
    have hp' : p = (q ++ [d]) ++ r := by simp [hp]
    cases hd : isSpecial d with
    | false =>
      rw [stuff_cons_plain hd] at hns ⊢
      obtain ⟨n, ns, rfl⟩ := List.exists_cons_of_length_eq_add_one hns
      obtain ⟨now', hrun⟩ := ih (q ++ [d]) ns tail n k hp' (Nat.succ.inj hns)
      refine ⟨now', ?_⟩
      rw [← hrun, List.length_cons, Nat.add_right_comm]
      exact run_succ_of_next (step_collecting_plain h hp hd n now _) _
    | true =>
      rw [stuff_cons_special hd] at hns ⊢
      obtain ⟨n, ns, rfl⟩ := List.exists_cons_of_length_eq_add_one hns
      obtain ⟨m, ns, rfl⟩ := List.exists_cons_of_length_eq_add_one (Nat.succ.inj hns)
      obtain ⟨now', hrun⟩ := ih (q ++ [d]) ns tail m k hp' (Nat.succ.inj (Nat.succ.inj hns))
      refine ⟨now', ?_⟩
      rw [← hrun, List.length_cons, List.length_cons, Nat.add_right_comm, Nat.add_right_comm (stuff r).length]
      exact (run_succ_of_next (step_collecting_escape h hp n now _) _).trans
        (run_succ_of_next (step_collecting_escaped h hp hd m n _) _)

/-- END on the collected frame dispatches it. -/
theorem step_collecting_end {s : State} {p : List Byte} {i : Ident} (h : Deliverable s p i) (n now : Nat)
    (rest : List Input) :
    step (collecting s p (.byte endMarker n :: rest) now) =
      let valid := decide ((p.map BitVec.toNat).sum % 256 = 0)
      let scanned := (s.config.lengthOf i).isNone
      dispatch { bytes := p, valid := valid, scanned := scanned } { s with
        st := .idle, esc := false, buf := [], exp := .undetermined, sum := 0, inputs := rest, now := n,
        events := [.frame p valid scanned] } := by
  have hlen := length_of_memReadBE h.ident
  have hexp : (collecting s p rest n).exp = expectedFor s.config i := lookedUp_of_ident h.ident
  have hvalid : (collecting s p rest n).checksumOk = decide ((p.map BitVec.toNat).sum % 256 = 0) :=
    checksumOk_eq (s := collecting s p rest n) rfl
  have hscan : (collecting s p rest n).scanning = (s.config.lengthOf i).isNone := by
    rw [scanning_eq, hexp]
    cases hL : s.config.lengthOf i <;> simp [expectedFor, hL]
  have hcomplete : (collecting s p rest n).complete = true := by
    refine (complete_iff _).mpr ⟨hlen, ?_⟩
    rw [hexp]
    cases hL : s.config.lengthOf i with
    | none => exact .inl (expectedFor_of_none hL)
    | some L => exact .inr ((expectedFor_of_some hL).trans (h.tableLength L hL ▸ rfl))
  have hframe : (collecting s p rest n).frame =
      { bytes := p, valid := decide ((p.map BitVec.toNat).sum % 256 = 0), scanned := (s.config.lengthOf i).isNone } := by
    rw [State.frame, hvalid, hscan]
    rfl
  rw [step_collecting h]
  refine (exec_end_inFrame (s := collecting s p rest n) rfl rfl).trans ?_
  rw [if_pos hcomplete, completeFrame, hframe]
  rfl

/-- Settles O46: the sync marker starts the frame, the stuffed bytes collect it, and END dispatches it. -/
theorem wireFrameIsDelivered : Obligations.WireFrameIsDelivered := by
  intro s p i ns n rest body wire valid scanned hwf hst hfatal hi hfits htable hsync hns hin
  have h : Deliverable s p i := ⟨hwf, hfatal, hi, hfits, htable⟩
  obtain ⟨n0, ns, rfl⟩ := List.exists_cons_of_length_eq_add_one hns
  have hp : p = (if s.config.storeSync then [syncByte] else []) ++ body := by
    cases hstore : s.config.storeSync with
    | false => simp [body, hstore]
    | true =>
      obtain ⟨tl, rfl⟩ := List.head?_eq_some_iff.mp (hsync hstore)
      simp [body, hstore]
  obtain ⟨now', hrun⟩ := run_collecting h body _ ns (.byte endMarker n :: rest) n0 1 hp (Nat.succ.inj hns)
  have hstart := run_succ_of_next (step_start h hst hin) ((stuff body).length + 1)
  exact hstart.trans (hrun.trans ((run_one _).trans (step_collecting_end h n now' rest)))

end Sys2Proof.Machine
end

section
/-!
# A frame of known length ends (`40_framing.md` section 5)

How many more wire bytes a frame of known length can take, that every byte uses one of them up, and the obligation O47.
-/
namespace Sys2Proof.Machine

/-- The wire bytes a frame of length `L` can still take: two for each byte not yet stored, the END, and one less while
an escape is pending. -/
def remaining (L : Nat) (s : State) : Nat := 2 * (L - s.buf.length) + 1 - s.esc.toNat

theorem remaining_pos {s : State} {L : Nat} (hinv : MachineInv s) (hexp : s.exp = .known L) : 0 < remaining L s := by
  obtain ⟨-, hle⟩ := hinv.known_range L hexp
  unfold remaining
  by_cases hfull : s.buf.length = L
  · simp [hinv.full_not_escaped L hexp hfull]
  · have hesc : s.esc.toNat ≤ 1 := Bool.toNat_le s.esc
    omega

/-- The step of a frame that goes on: still the same known length, and fewer wire bytes to come. -/
structure GoesOn (L : Nat) (s t : State) : Prop where
  exp : t.exp = .known L
  inputs : t.inputs = s.inputs
  fewer : remaining L t < remaining L s

/-- APPEND below a known length ends the frame by an overflow or stores the byte. -/
theorem append_goesOn {d : Byte} {s t : State} {L : Nat} (hexp : s.exp = .known L) (hlong : 3 ≤ s.buf.length)
    (hlt : s.buf.length < L) (h : append d (s.setEsc false) = .next t) : IdleClear t ∨ GoesOn L s t := by
  rcases append_cases d (s.setEsc false) with ⟨-, e⟩ | ⟨-, hlen, -⟩ | ⟨-, -, e⟩
  · cases e.symm.trans h
    exact .inl (raise_idleClear (.overflow _) _)
  · rw [State.setEsc_buf] at hlen
    omega
  · cases e.symm.trans h
    refine .inr ⟨hexp, rfl, ?_⟩
    have hesc : s.esc.toNat ≤ 1 := Bool.toNat_le s.esc
    simp [remaining]
    omega

theorem ByteStep.ends_or_goesOn {b : Byte} {s t : State} {L : Nat} (h : ByteStep b s t) (hinv : MachineInv s)
    (hexp : s.exp = .known L) : IdleClear t ∨ GoesOn L s t := by
  obtain ⟨hlong, hle⟩ := hinv.known_range L hexp
  have hlt (hne : s.exp ≠ .known s.buf.length) : s.buf.length < L :=
    lt_of_le_of_ne hle fun e => hne (e ▸ hexp)
  have hbusy : s.st ≠ .idle := fun hst => by
    obtain ⟨-, -, hundet⟩ := hinv.idle_clear hst
    cases hundet.symm.trans hexp
  cases h with
  | ignored hst hb => exact absurd hst hbusy
  | started hst hb h => exact absurd hst hbusy
  | faulted hst hfull hb hi => exact .inl (raise_idleClear (.framing _ _) s)
  | escaped hst hesc hnot h =>
    refine append_goesOn hexp hlong (hlt fun hfull => ?_) h
    cases hesc.symm.trans (hinv.full_not_escaped _ hfull rfl)
  | escape hst hesc hne hb =>
    have hlen := hlt hne
    refine .inr ⟨hexp, rfl, ?_⟩
    simp [remaining, hesc]
  | completed hst hesc hb hc h => exact .inl (completeFrame_idleClear h)
  | short hst hesc hb hc => exact .inl (raise_idleClear (.short _) s)
  | stored hst hesc hne hbesc hbend h =>
    have hclear : s.setEsc false = s := by simp [State.setEsc, ← hesc]
    exact append_goesOn hexp hlong (hlt hne) (hclear.symm ▸ h)

/-- By induction on a bound for the bytes that remain: each step ends the frame or lowers them. -/
theorem run_ends_within {L m : Nat} {s : State} {bs : List (Byte × Nat)} (hinv : MachineInv s)
    (hfatal : s.fatal = false) (hexp : s.exp = .known L) (hin : s.inputs = bs.map fun p => .byte p.1 p.2)
    (hm : remaining L s ≤ m) (hbs : m ≤ bs.length) :
    ∃ k t, k ≤ m ∧ Host.Core.run Sys2Proof.core k s = .next t ∧ IdleClear t := by
  have hpos := remaining_pos hinv hexp
  induction m generalizing s bs with
  | zero => omega
  | succ m ih =>
    obtain ⟨⟨b, n⟩, bs, rfl⟩ := List.exists_cons_of_length_pos (Nat.zero_lt_of_lt hbs)
    obtain ⟨t, ht⟩ := stepTotalUnderInv s hinv
    have hexec := (step_of_byte hinv.config_wf hfatal hin).symm.trans ht
    have hbyte := byteStep_of_exec hexec
    rcases hbyte.ends_or_goesOn (hinv.withInputs _ _ _) hexp with hidle | ⟨hexp', hin', hfewer⟩
    · exact ⟨1, t, by omega, (run_one s).trans ht, hidle⟩
    · have hinv' := stepKeepsInv s t hinv ht
      have hless : remaining L t < remaining L s := hfewer
      obtain ⟨k, u, hk, hrun, hidle⟩ :=
        ih hinv' (hbyte.keeps_fatal.trans hfatal) hexp' hin' (by omega) (Nat.le_of_succ_le_succ hbs)
          (remaining_pos hinv' hexp')
      exact ⟨k + 1, u, by omega, (run_succ_of_next ht k).trans hrun, hidle⟩

/-- Settles O47: the bytes that remain are at most `2 * (L - len) + 1`. -/
theorem knownFrameEndsWithinBound : Obligations.KnownFrameEndsWithinBound := by
  intro s L bs hinv hfatal hexp hin hbs
  exact run_ends_within hinv hfatal hexp hin (Nat.sub_le _ _) hbs

end Sys2Proof.Machine
end

section
/-!
# The events of a completed frame (`60_exceptions.md` section 2, `41_dispatch.md` R85)

What each decode routine adds to the event list and what it does to `Channel`, the two ways a completed frame can end,
and with them the obligations O49, O50 and O51.
-/
namespace Sys2Proof.Machine

/-! ## The events of a routine -/

/-- The events of a decode routine: one dispatch, with the index report before it where a channel index was clamped, or
one drop. -/
inductive RoutineEvents : Message → List Event → Prop where
  | plain {m : Message} {type : MsgType} (hm : ∀ mark f, m ≠ .chanstat mark f) (htype : type ≠ .chanstat)
      (due : Bool) (reqs : List EncReq) : RoutineEvents m [.dispatch type due reqs]
  | chanstat (mark : Byte) (f : ChanstatFields) (due : Bool) (reqs : List EncReq) :
      RoutineEvents (.chanstat mark f) [.dispatch .chanstat due reqs]
  | clamped (mark : Byte) (f : ChanstatFields) (raw : Byte) (due : Bool) (reqs : List EncReq) :
      RoutineEvents (.chanstat mark f) [.fault (.channelIndexOutOfRange raw), .dispatch .chanstat due reqs]
  | dropped (mark : Byte) (i : Ident) : RoutineEvents (.unknown mark i) [.drop .unknownMessageId i]

theorem runMessage_events {m : Message} {s t : State} (h : runMessage m s = .next t) :
    ∃ tail, t.events = s.events ++ tail ∧ RoutineEvents m tail := by
  cases m with
  | chanstat mark f =>
    cases (execChanstat_eq f s).symm.trans h
    refine ⟨_, rfl, ?_⟩
    split_ifs
    · exact .clamped mark f _ _ _
    · exact .chanstat mark f _ _
  | unknown mark i =>
    cases h
    exact ⟨_, rfl, .dropped mark i⟩
  | fastfix | gpsfix | utcconst | utctime =>
    cases h
    exact ⟨_, rfl, .plain (by simp) (by simp) _ _⟩

/-- A dispatch event of a channel message comes from the routine of a channel message, and from no other. -/
theorem RoutineEvents.chanstat_mem_iff {m : Message} {tail : List Event} (h : RoutineEvents m tail) :
    (∃ due reqs, Event.dispatch .chanstat due reqs ∈ tail) ↔ ∃ mark f, m = .chanstat mark f := by
  cases h with
  | plain hm htype due reqs => simp [hm, htype.symm]
  | chanstat | clamped | dropped => simp

/-- The end of an event list that `EventShape` allows for a frame of the message. -/
theorem RoutineEvents.shape {m : Message} {tail : List Event} (h : RoutineEvents m tail) :
    (∃ c, tail = [.drop c m.ident]) ∨ (∃ type due reqs, tail = [.dispatch type due reqs]) ∨
      (∃ raw due reqs, tail = [.fault (.channelIndexOutOfRange raw), .dispatch .chanstat due reqs]) := by
  cases h with
  | plain hm htype due reqs => exact .inr (.inl ⟨_, _, _, rfl⟩)
  | chanstat mark f due reqs => exact .inr (.inl ⟨_, _, _, rfl⟩)
  | clamped mark f raw due reqs => exact .inr (.inr ⟨_, _, _, rfl⟩)
  | dropped mark i => exact .inl ⟨_, rfl⟩

/-! ## The slots after a routine -/

/-- The routine of a channel message writes the slot of the clamped index (`41_dispatch.md` R90). -/
theorem execChanstat_channel {f : ChanstatFields} {s t : State} (h : execChanstat f s = .next t) (k : SlotIndex) :
    t.channel[k] = if k = clampSlot f.index then some (channelRecOf f) else s.channel[k] := by
  cases (execChanstat_eq f s).symm.trans h
  have hslot : k.val = (if f.index.toNat ≤ 11 then f.index.toNat else 11) ↔ k = clampSlot f.index := by
    rw [← clampSlot_val, Fin.ext_iff]
  exact (getElem_set_clampSlot s.channel f.index (channelRecOf f) k).trans (if_congr hslot rfl rfl)

theorem runMessage_keeps_channel {m : Message} {s t : State} (hm : ∀ mark f, m ≠ .chanstat mark f)
    (h : runMessage m s = .next t) : t.channel = s.channel := by
  cases m with
  | chanstat mark f => exact absurd rfl (hm mark f)
  | fastfix | gpsfix | utcconst | utctime | unknown => cases h; rfl

/-! ## The two ends of a completed frame -/

theorem decodeFrame_ident {lay : Layout} {bytes : List Byte} {m : Message} (h : decodeFrame lay bytes = .ok m) :
    memReadBE bytes 1 = some m.ident ∧ bytes[0]? = some m.mark ∧
      ((∃ mark i, m = .unknown mark i) ↔ m.ident ∉ dispatchedIdents) := by
  obtain ⟨mark, i, hmark, hi, hsel⟩ := decodeFrame_selects h
  cases hsel with
  | unknown hnone => simpa [Message.ident, Message.mark, hmark, hi] using hnone
  | fastfix | gpsfix | utcconst | utctime | chanstat =>
    simp [Message.ident, Message.mark, hmark, hi, dispatchedIdents]

/-- The checksum report of a frame, where its sum fails. -/
def checksumEvents (valid : Bool) (i : Ident) : List Event := if valid then [] else [.fault (.checksumMismatch i)]

/-- The state in which a completed frame is dropped or its routine runs: in `Idle`, after the frame's event and the
checksum report. -/
def frameReported (s : State) (i : Ident) : State := checksumReported s.frame i (s.toIdle.emit
  (.frame s.frame.bytes s.frame.valid s.frame.scanned))

theorem frameReported_events (s : State) (i : Ident) :
    (frameReported s i).events =
      s.events ++ .frame s.buf s.checksumOk s.scanning :: checksumEvents s.checksumOk i :=
  List.append_assoc s.events [_] _

/-- A completed frame is dropped, or it is of known length, decodes, and its routine runs. -/
theorem completeFrame_cases {s t : State} (h : completeFrame s = .next t) :
    ∃ i, memReadBE s.buf 1 = some i ∧
      ((∃ c, t = (frameReported s i).emit (.drop c i)) ∨
        ∃ m, decodeFrame s.config.layout s.buf = .ok m ∧ m.ident = i ∧ runMessage m (frameReported s i) = .next t) := by
  obtain ⟨i, s1, hi, hs1, hcases⟩ := dispatch_cases h
  obtain rfl : s1 = frameReported s i := hs1.trans (checksumReported_eq s.frame i _)
  refine ⟨i, hi, ?_⟩
  rcases hcases with ⟨-, e⟩ | ⟨-, -, -, e⟩ | ⟨-, -, m, hm, hrun⟩
  · exact .inl ⟨_, e⟩
  · exact .inl ⟨_, e⟩
  · exact .inr ⟨m, hm, Option.some.inj ((decodeFrame_ident hm).1.symm.trans hi), hrun⟩

/-- The event list of a completion: the frame, the checksum report, and the drop or the routine's events. -/
theorem completeFrame_events {s t : State} (h : completeFrame s = .next t) :
    ∃ i tail, memReadBE s.buf 1 = some i ∧
      t.events = s.events ++ .frame s.buf s.checksumOk s.scanning :: (checksumEvents s.checksumOk i ++ tail) ∧
      ((∃ c, tail = [.drop c i]) ∨ (∃ type due reqs, tail = [.dispatch type due reqs]) ∨
        (∃ raw due reqs, tail = [.fault (.channelIndexOutOfRange raw), .dispatch .chanstat due reqs])) := by
  obtain ⟨i, hi, ⟨c, rfl⟩ | ⟨m, hm, rfl, hrun⟩⟩ := completeFrame_cases h
  · exact ⟨i, [.drop c i], hi, by simp [frameReported_events], .inl ⟨c, rfl⟩⟩
  · obtain ⟨tail, hevents, htail⟩ := runMessage_events hrun
    exact ⟨_, tail, hi, by simp [hevents, frameReported_events], htail.shape⟩

/-! ## The obligations -/

theorem FramingEvents.eventShape {es : List Event} (h : FramingEvents es) : EventShape es := by
  cases h with
  | quiet => exact .quiet
  | framing i L => exact .framing i L
  | short n => exact .short n
  | overflow n => exact .overflow n
  | source => exact .source

theorem FramingEvents.mem_is_fault {es : List Event} (h : FramingEvents es) {e : Event} (he : e ∈ es) :
    ∃ r, e = .fault r := by
  cases h with
  | quiet => cases he
  | framing | short | overflow | source => exact ⟨_, List.mem_singleton.mp he⟩

/-- The event list of a step that only frames. -/
theorem OnlyFramed.step_events {s t : State} (h : OnlyFramed s.clearEvents t) : FramingEvents t.events := by
  obtain ⟨es, hes, e⟩ := h.events
  rw [State.clearEvents_events, List.nil_append] at e
  exact e ▸ hes

/-- Settles O49: the events of a framing step, or those of a completion. -/
theorem stepEventOrder : Obligations.StepEventOrder := by
  intro s t h
  rcases step_onlyFramed_or_completed h with hframed | ⟨n, rest, hend⟩
  · exact hframed.step_events.eventShape
  · obtain ⟨i, tail, hi, hevents, htail⟩ := completeFrame_events hend.answers
    have hshape := EventShape.completion s.buf s.checksumOk s.scanning i _ tail hi rfl htail
    exact hevents ▸ hshape

/-- The one frame event of a step is that of the frame completed in the buffer. -/
theorem step_frame_event {s t : State} {bytes : List Byte} {valid scanned : Bool} (h : step s = .next t)
    (hmem : .frame bytes valid scanned ∈ t.events) :
    s.complete = true ∧ bytes = s.buf ∧ valid = s.checksumOk ∧ scanned = s.scanning := by
  rcases step_onlyFramed_or_completed h with hframed | ⟨n, rest, hend⟩
  · obtain ⟨r, e⟩ := hframed.step_events.mem_is_fault hmem
    cases e
  · obtain ⟨i, tail, -, hevents, htail⟩ := completeFrame_events hend.answers
    have hcheck : .frame bytes valid scanned ∉ checksumEvents s.checksumOk i := by
      unfold checksumEvents
      split <;> simp
    have htail' : .frame bytes valid scanned ∉ tail := by
      rcases htail with ⟨_, rfl⟩ | ⟨_, _, _, rfl⟩ | ⟨_, _, _, rfl⟩ <;> simp
    have hframe : Event.frame bytes valid scanned = .frame s.buf s.checksumOk s.scanning := by
      rw [hevents] at hmem
      rcases List.mem_cons.mp hmem with e | hmem
      · exact e
      · exact absurd hmem (List.not_mem_append hcheck htail')
    injection hframe with hbytes hvalid hscanned
    exact ⟨hend.complete, hbytes, hvalid, hscanned⟩

theorem lengthOf_eq_none_of_expectedFor {c : Config} {i : Ident} (h : expectedFor c i = .unknown) :
    c.lengthOf i = none := by
  unfold expectedFor at h
  split at h
  · cases h
  · next hnone => exact hnone

/-- Settles O50: the emitted frame is the complete buffer, whose `exp` the invariant ties to the table. -/
theorem emittedFrameLengths : Obligations.EmittedFrameLengths := by
  intro s t bytes valid scanned hinv h hmem
  obtain ⟨hc, rfl, rfl, rfl⟩ := step_frame_event h hmem
  obtain ⟨hlen, hexp⟩ := (complete_iff s).mp hc
  obtain ⟨i, hi⟩ := memReadBE_isSome (bytes := s.buf) (off := 1) (by omega)
  have hlook : s.exp = expectedFor s.config i := hinv.exp_looked_up i hlen hi
  refine ⟨hlen, by simpa [Memory.wf] using hinv.within_capacity, ?valid, ?known, ?scanned⟩
  case valid => rw [checksumOk_eq hinv.sum_eq, decide_eq_true_eq]
  case known =>
    intro hscan
    obtain ⟨-, hknown⟩ := exp_of_complete hc hscan
    exact ⟨i, hi, lengthOf_of_expectedFor (hlook.symm.trans hknown)⟩
  case scanned =>
    intro hscan
    have hunknown : s.exp = .unknown := by simpa [scanning_eq] using hscan
    exact ⟨i, hi, lengthOf_eq_none_of_expectedFor (hlook.symm.trans hunknown)⟩

/-- Everything a step can do to `Channel`: a channel message in the buffer is dispatched and its slot is written, or no
such event is emitted and no slot is written. -/
theorem step_channel_cases {s t : State} (h : step s = .next t) :
    (∃ mark f, decodeFrame s.config.layout s.buf = .ok (.chanstat mark f) ∧
      (∃ due reqs, Event.dispatch .chanstat due reqs ∈ t.events) ∧
      ∀ k : SlotIndex, t.channel[k] = if k = clampSlot f.index then some (channelRecOf f) else s.channel[k]) ∨
    ((∀ due reqs, Event.dispatch .chanstat due reqs ∉ t.events) ∧ t.channel = s.channel) := by
  rcases step_onlyFramed_or_completed h with hframed | ⟨n, rest, hend⟩
  · refine .inr ⟨fun due reqs hmem => ?_, congrArg (·.2.2) hframed.nav⟩
    obtain ⟨r, e⟩ := hframed.step_events.mem_is_fault hmem
    cases e
  · have hreported (i : Ident) (due : Bool) (reqs : List EncReq) : Event.dispatch .chanstat due reqs ∉
        (frameReported (s.clearEvents.takeByte rest n) i).events := by
      rw [frameReported_events, checksumEvents]
      split <;> simp
    obtain ⟨i, -, ⟨c, rfl⟩ | ⟨m, hm, -, hrun⟩⟩ := completeFrame_cases hend.answers
    · refine .inr ⟨fun due reqs => ?_, rfl⟩
      exact List.not_mem_append (hreported i due reqs) (by simp)
    · obtain ⟨tail, hevents, htail⟩ := runMessage_events hrun
      rw [hevents]
      by_cases hchan : ∃ mark f, m = .chanstat mark f
      · obtain ⟨due, reqs, hmem⟩ := htail.chanstat_mem_iff.mpr hchan
        obtain ⟨mark, f, rfl⟩ := hchan
        have hslots := execChanstat_channel (s := frameReported (s.clearEvents.takeByte rest n) i) hrun
        exact .inl ⟨mark, f, hm, ⟨due, reqs, List.mem_append_right _ hmem⟩, hslots⟩
      · refine .inr ⟨fun due reqs => List.not_mem_append (hreported i due reqs) fun hmem => ?_, ?_⟩
        · exact hchan (htail.chanstat_mem_iff.mp ⟨due, reqs, hmem⟩)
        · exact (runMessage_keeps_channel (by simpa using hchan) hrun).trans rfl

/-- Settles O51: the two cases exclude each other by the dispatch event, and neither empties a slot. -/
theorem channelSlotsStayPopulated : Obligations.ChannelSlotsStayPopulated := by
  intro s t h
  rcases step_channel_cases h with ⟨mark, f, hdec, ⟨due, reqs, hmem⟩, hslots⟩ | ⟨hnone, hkept⟩
  · refine ⟨fun k hk => ?_, fun _ => ⟨mark, f, hdec, hslots⟩, fun hno => absurd hmem (hno due reqs)⟩
    rw [hslots]
    split_ifs
    · rfl
    · exact hk
  · refine ⟨fun k hk => hkept ▸ hk, ?_, fun _ => hkept⟩
    rintro ⟨due, reqs, hmem⟩
    exact absurd hmem (hnone due reqs)

end Sys2Proof.Machine
end

section
/-!
# The throttle, repeated messages and the visible port (`41_dispatch.md` sections 2 and 3, `70_reset_and_hazards.md` R143)

The obligations O32, O54 and O59.
-/
namespace Sys2Proof.Machine

/-- Settles O32: the report is due by the elapsed time, which a clock behind the last report does not have. -/
theorem throttleDecision : Obligations.ThrottleDecision := by
  refine ⟨throttleDue_none, ?elapsed, ?behind, ?write, rfl⟩
  case elapsed =>
    intro t ticks now
    rw [throttleDue_some, decide_eq_true_eq]
    omega
  case behind =>
    intro t ticks now hlt
    rw [throttleDue_some, decide_eq_false_iff_not]
    omega
  case write =>
    intro s due
    cases due <;> rfl

/-- What the routine of a message makes of Navigation State (`41_dispatch.md` R86 to R90, R95). -/
def navAfter (m : Message) (p : Position) (g : GpsTime) (ch : Channels) : Position × GpsTime × Channels :=
  match m with
  | .fastfix _ f =>
    ({ valid4 f.status p with age := f.age, tow := f.tow, latRaw := f.lat, lonRaw := f.lon, alt := f.alt }, g, ch)
  | .gpsfix _ f =>
    ({ valid4 f.status p with
        fixSrc := f.fixSrc, altHold := f.altHold, latRaw := f.lat, lonRaw := f.lon, alt := f.alt, hdgRaw := f.hdg,
        spd := f.spd }, g, ch)
  | .utcconst _ f =>
    ({ p with pdopRaw := f.pdop, hdopRaw := f.hdop, vdopRaw := f.vdop, visCount := f.vis }, writeCalendar f.cal g, ch)
  | .utctime _ f => ({ p with tow := f.tow }, { writeCalendar f.cal g with tow := f.tow, week := f.week }, ch)
  | .chanstat _ f =>
    let slots := ch.set (clampSlot f.index) (some (channelRecOf f))
    ({ p with trkCount := BitVec.ofNat 4 (trackedCount slots) }, g, slots)
  | .unknown _ _ => (p, g, ch)

/-- The routine's effect on Navigation State depends on Navigation State alone. -/
theorem exec_message_nav {m : Message} {s t : State} (h : exec m.toInstr s = .next t) :
    t.nav = navAfter m s.position s.gpsTime s.channel := by
  cases m with
  | chanstat mark f => cases (execChanstat_eq f s).symm.trans h; rfl
  | fastfix | gpsfix | utcconst | utctime | unknown => cases h; rfl

/-- A field written twice holds what was written; so does a slot. -/
theorem navAfter_twice (m : Message) (p : Position) (g : GpsTime) (ch : Channels) :
    navAfter m (navAfter m p g ch).1 (navAfter m p g ch).2.1 (navAfter m p g ch).2.2 = navAfter m p g ch := by
  cases m with
  | chanstat mark f => simp [navAfter]
  | fastfix | gpsfix | utcconst | utctime | unknown => rfl

/-- Settles O54: both executions write Navigation State by `navAfter`, whatever the clock. -/
theorem repeatedMessageIdempotent : Obligations.RepeatedMessageIdempotent := by
  intro m s t u n ht hu
  have hfirst : (t.position, t.gpsTime, t.channel) = navAfter m s.position s.gpsTime s.channel := exec_message_nav ht
  have htwice := navAfter_twice m s.position s.gpsTime s.channel
  rw [← hfirst] at htwice
  exact (exec_message_nav hu).trans htwice

/-- Bit `j` of a slot's mask is the slot's own bit. -/
theorem slotBit_getLsbD (k j : SlotIndex) : (slotBit k).getLsbD j = decide (j = k) := by
  revert k j
  decide

/-- The masks of some slots, one or another on top of `m`. -/
theorem getLsbD_foldl_slotBit (l : List SlotIndex) (m : BitVec 12) (j : SlotIndex) :
    (l.foldl (fun m k => m ||| slotBit k) m).getLsbD j = (m.getLsbD j || decide (j ∈ l)) := by
  induction l generalizing m with
  | nil => simp
  | cons k l ih =>
    rw [List.foldl_cons, ih, BitVec.getLsbD_or, slotBit_getLsbD, Bool.or_assoc, ← Bool.decide_or]
    simp only [List.mem_cons]

/-- Settles O59: the vector has the bits of the visible list. -/
theorem visiblePortShowsVisibleSlots : Obligations.VisiblePortShowsVisibleSlots := by
  intro s k
  have hbit : s.ports.gsvVis.getLsbD k = decide (k ∈ visibleSlots s.channel) :=
    (getLsbD_foldl_slotBit (visibleSlots s.channel) 0 k).trans (by simp)
  rw [hbit, decide_eq_true_eq, mem_visibleSlots_iff]

end Sys2Proof.Machine
end

section
/-!
# What the dispatcher does not read (`60_exceptions.md` R128, `41_dispatch.md` R85)

Only the throttle of a channel message reads the clock, and no rule reads the mark of a frame: the obligations O52 and
O53, and with them O35, which says what the mark and the identifier of a message are.
-/
namespace Sys2Proof.Machine

/-! ## The clock -/

/-- The state at another clock value. -/
def State.atClock (s : State) (n : Nat) : State := { s with now := n }

/-- The meaning `f` reads the clock in no step from `s` but the dispatch of a channel message. -/
def ClockFree (f : State → Result) (s : State) : Prop :=
  ∀ t n, f s = .next t → (∀ due reqs, Event.dispatch .chanstat due reqs ∉ t.events) →
    f (s.atClock n) = .next (t.atClock n)

section
variable {s : State}

/-- A register write that does not read the clock. -/
theorem ClockFree.next {g : State → State} (hg : ∀ n, g (s.atClock n) = (g s).atClock n) :
    ClockFree (fun s => .next (g s)) s := by
  intro t n h _
  cases h
  exact congrArg _ (hg n)

/-- A meaning after a register write. -/
theorem ClockFree.comp {f : State → Result} {g : State → State} (hg : ∀ n, g (s.atClock n) = (g s).atClock n)
    (hf : ClockFree f (g s)) : ClockFree (fun s => f (g s)) s := by
  intro t n h hno
  exact (congrArg f (hg n)).trans (hf t n h hno)

/-- A choice between two meanings by a test that does not read the clock. -/
theorem ClockFree.ite {p : State → Prop} [∀ s, Decidable (p s)] {f g : State → Result}
    (hp : ∀ n, p (s.atClock n) ↔ p s) (hf : ClockFree f s) (hg : ClockFree g s) :
    ClockFree (fun s => if p s then f s else g s) s := by
  intro t n h hno
  by_cases hs : p s
  · simp only [if_pos hs] at h
    simp only [if_pos ((hp n).mpr hs), hf t n h hno]
  · simp only [if_neg hs] at h
    simp only [if_neg ((hp n).not.mpr hs), hg t n h hno]

end

theorem lookup_clockFree (s : State) : ClockFree lookup s := by
  intro t n h _
  obtain ⟨i, hi, rfl⟩ := lookup_cases h
  have hi' : memReadBE (s.atClock n).buf 1 = some i := hi
  simp only [lookup, hi']
  rfl

theorem append_clockFree (d : Byte) (s : State) : ClockFree (append d) s :=
  .ite (fun _ => .rfl) (.next fun _ => rfl)
    (.ite (fun _ => .rfl) (.comp (fun _ => rfl) (lookup_clockFree (s.pushByte d))) (.next fun _ => rfl))

theorem startFrame_clockFree (s : State) : ClockFree startFrame s :=
  .ite (fun _ => .rfl) (.comp (fun _ => rfl) (append_clockFree syncByte s.enterFrame)) (.next fun _ => rfl)

theorem framingFault_clockFree (s : State) : ClockFree framingFault s := by
  intro t n h _
  obtain ⟨i, hi, rfl⟩ := framingFault_cases h
  have hi' : memReadBE (s.atClock n).buf 1 = some i := hi
  simp only [framingFault, hi']
  rfl

/-- The one routine that reads the clock emits the dispatch event of a channel message. -/
theorem runMessage_clockFree (m : Message) (s : State) : ClockFree (runMessage m) s := by
  intro t n h hno
  obtain ⟨tail, hevents, htail⟩ := runMessage_events h
  have hm : ¬∃ mark f, m = .chanstat mark f := by
    rw [← htail.chanstat_mem_iff]
    rintro ⟨due, reqs, hmem⟩
    exact hno due reqs (hevents ▸ List.mem_append_right _ hmem)
  cases m with
  | chanstat mark f => exact absurd ⟨mark, f, rfl⟩ hm
  | fastfix | gpsfix | utcconst | utctime | unknown => cases h; rfl

theorem dispatchDecoded_clockFree (bytes : List Byte) (s : State) : ClockFree (dispatchDecoded bytes) s := by
  intro t n h hno
  have hconfig : (s.atClock n).config = s.config := rfl
  cases hm : decodeFrame s.config.layout bytes with
  | ok m =>
    simp only [dispatchDecoded, hconfig, hm] at h ⊢
    exact runMessage_clockFree m s t n h hno
  | error e => cases e <;> simp only [dispatchDecoded, hm, reduceCtorEq] at h

theorem dispatch_clockFree (f : Frame) (s : State) : ClockFree (dispatch f) s := by
  intro t n h
  obtain ⟨i, -, hi, -⟩ := dispatch_cases h
  have hgates : ClockFree (dispatch f) s := by
    rw [funext (dispatch_eq hi)]
    exact .ite (fun _ => .rfl) (.next fun _ => rfl) (.ite (fun _ => .rfl) (.next fun _ => rfl)
      (.comp (fun _ => rfl) (dispatchDecoded_clockFree f.bytes (checksumReported f i s))))
  exact hgates t n h

theorem completeFrame_clockFree (s : State) : ClockFree completeFrame s :=
  fun t n h hno => dispatch_clockFree s.frame _ t n h hno

theorem plainByte_clockFree (b : Byte) (s : State) : ClockFree (plainByte b) s :=
  .ite (fun _ => .rfl) (.next fun _ => rfl) (.ite (fun _ => .rfl)
    (.ite (fun _ => .rfl) (completeFrame_clockFree s) (.next fun _ => rfl)) (append_clockFree b s))

theorem receive_clockFree (b : Byte) (s : State) : ClockFree (fun s => receive b (plainByte b s) s) s :=
  .ite (fun _ => .rfl) (framingFault_clockFree s) (.ite (fun _ => .rfl)
    (.comp (fun _ => rfl) (append_clockFree (b ||| 0x80) (s.setEsc false))) (plainByte_clockFree b s))

theorem exec_byte_clockFree (b : Byte) (s : State) : ClockFree (exec (decodeByte b)) s := by
  intro t n h hno
  cases hst : s.st with
  | idle =>
    have hidle : ClockFree (fun s => if b = syncByte then startFrame s else .next s) s :=
      .ite (fun _ => .rfl) (startFrame_clockFree s) (.next fun _ => rfl)
    rw [exec_byte_idle hst] at h
    exact (exec_byte_idle (s := s.atClock n) hst b).trans (hidle t n h hno)
  | inFrame =>
    rw [exec_byte_inFrame hst] at h
    exact (exec_byte_inFrame (s := s.atClock n) hst b).trans (receive_clockFree b s t n h hno)

/-- Settles O52: a fatal machine drops the byte with its clock value, and no other byte's meaning reads the clock. -/
theorem clockReadOnlyByChannelDispatch : Obligations.ClockReadOnlyByChannelDispatch := by
  intro s t b n1 n2 rest h hno
  obtain ⟨hwf, -⟩ := step_cases h
  rcases Bool.eq_false_or_eq_true s.fatal with hfatal | hfatal
  · have hdrop (n : Nat) := step_of_fatal (s := { s with inputs := .byte b n :: rest }) hwf hfatal rfl
    cases (hdrop n1).symm.trans h
    exact ⟨_, hdrop n2, rfl⟩
  · have hbyte (n : Nat) := step_of_byte (s := { s with inputs := .byte b n :: rest }) hwf hfatal rfl
    have hexec := (hbyte n1).symm.trans h
    exact ⟨t.atClock n2, (hbyte n2).trans (exec_byte_clockFree b _ t n2 hexec hno), rfl⟩

end Sys2Proof.Machine

namespace Sys2Proof

/-! ## The mark -/

/-- Two byte lists from which a field reads the same. -/
def FieldSpec.SameReads (bytes bytes' : List Byte) (f : FieldSpec) : Prop :=
  (∀ w, f.read bytes w = f.read bytes' w) ∧ f.readByte bytes = f.readByte bytes'

/-- A field behind the mark does not read it. -/
theorem FieldSpec.sameReads_of_off (m1 m2 : Byte) (rest : List Byte) {f : FieldSpec} (hoff : 3 ≤ f.off) :
    f.SameReads (m1 :: rest) (m2 :: rest) := by
  obtain ⟨off, width⟩ := f
  obtain ⟨k, rfl⟩ := Nat.exists_eq_add_of_le' (Nat.le_trans (by decide : 1 ≤ 3) hoff)
  exact ⟨fun _ => rfl, rfl⟩

section
variable {bytes bytes' : List Byte}

theorem CalendarLayout.read_congr {l : CalendarLayout} (h : ∀ f ∈ l.fields, f.SameReads bytes bytes') :
    l.read bytes = l.read bytes' := by
  simp only [CalendarLayout.fields, List.forall_mem_cons, FieldSpec.SameReads] at h
  simp only [CalendarLayout.read, h]

theorem FastfixLayout.read_congr {l : FastfixLayout} (h : ∀ f ∈ l.fields, f.SameReads bytes bytes') :
    l.read bytes = l.read bytes' := by
  simp only [FastfixLayout.fields, List.forall_mem_cons, FieldSpec.SameReads] at h
  simp only [FastfixLayout.read, h]

theorem GpsfixLayout.read_congr {l : GpsfixLayout} (h : ∀ f ∈ l.fields, f.SameReads bytes bytes') :
    l.read bytes = l.read bytes' := by
  simp only [GpsfixLayout.fields, List.forall_mem_cons, FieldSpec.SameReads] at h
  simp only [GpsfixLayout.read, h]

theorem UtcconstLayout.read_congr {l : UtcconstLayout} (h : ∀ f ∈ l.fields, f.SameReads bytes bytes') :
    l.read bytes = l.read bytes' := by
  simp only [UtcconstLayout.fields, List.forall_mem_append] at h
  obtain ⟨hcal, hfields⟩ := h
  simp only [List.forall_mem_cons, FieldSpec.SameReads] at hfields
  simp only [UtcconstLayout.read, CalendarLayout.read_congr hcal, hfields]

theorem UtctimeLayout.read_congr {l : UtctimeLayout} (h : ∀ f ∈ l.fields, f.SameReads bytes bytes') :
    l.read bytes = l.read bytes' := by
  simp only [UtctimeLayout.fields, List.forall_mem_append] at h
  obtain ⟨hcal, hfields⟩ := h
  simp only [List.forall_mem_cons, FieldSpec.SameReads] at hfields
  simp only [UtctimeLayout.read, CalendarLayout.read_congr hcal, hfields]

theorem ChanstatLayout.read_congr {l : ChanstatLayout} (h : ∀ f ∈ l.fields, f.SameReads bytes bytes') :
    l.read bytes = l.read bytes' := by
  simp only [ChanstatLayout.fields, List.forall_mem_cons, FieldSpec.SameReads] at h
  simp only [ChanstatLayout.read, h]

end

/-- The message with another mark. -/
def Message.withMark (mark : Byte) : Message → Message
  | .fastfix _ f => .fastfix mark f
  | .gpsfix _ f => .gpsfix mark f
  | .utcconst _ f => .utcconst mark f
  | .utctime _ f => .utctime mark f
  | .chanstat _ f => .chanstat mark f
  | .unknown _ i => .unknown mark i

theorem map_messageOr {α : Type} (g : Message → Message) (make : α → Message) (o : Option α) :
    (messageOr make o).map g = messageOr (g ∘ make) o := by
  cases o <;> rfl

/-- Decoding a frame whose identifier is in the table carries the mark over and reads it nowhere else. -/
theorem decodeFrame_withMark {c : Config} {i : Ident} {L : Nat} {m1 : Byte} {rest : List Byte} (m2 : Byte)
    (hwf : c.wf = true) (hi : memReadBE (m1 :: rest) 1 = some i) (hL : c.lengthOf i = some L) :
    decodeFrame c.layout (m2 :: rest) = (decodeFrame c.layout (m1 :: rest)).map (Message.withMark m2) := by
  obtain ⟨-, -, -, hfast, hgps, hconst, htime, hchan⟩ := Config.wf_parts hwf
  have hi2 : memReadBE (m2 :: rest) 1 = some i := hi
  have hsame {j : Ident} {fields : List FieldSpec} (hok : c.layoutOk j fields = true) (hj : i = j) :
      ∀ f ∈ fields, f.SameReads (m2 :: rest) (m1 :: rest) := fun f hf =>
    FieldSpec.sameReads_of_off m2 m1 rest ((c.layoutOk_iff j fields).mp hok L (hj ▸ hL) f hf).1
  simp only [decodeFrame, hi, hi2, List.getElem?_cons_zero]
  split_ifs with h1 h2 h3 h4 h5
  · rw [map_messageOr, FastfixLayout.read_congr (hsame hfast h1)]; rfl
  · rw [map_messageOr, UtcconstLayout.read_congr (hsame hconst h2)]; rfl
  · rw [map_messageOr, UtctimeLayout.read_congr (hsame htime h3)]; rfl
  · rw [map_messageOr, GpsfixLayout.read_congr (hsame hgps h4)]; rfl
  · rw [map_messageOr, ChanstatLayout.read_congr (hsame hchan h5)]; rfl
  · rfl

/-- Settles O35: the message is the one that `Selects` names. -/
theorem messageSelectedByIdentifier : Obligations.MessageSelectedByIdentifier := fun _ _ _ h =>
  Machine.decodeFrame_ident h

end Sys2Proof

namespace Sys2Proof.Machine

theorem runMessage_withMark (mark : Byte) (m : Message) (s : State) :
    runMessage (m.withMark mark) s = runMessage m s := by
  cases m <;> rfl

theorem dispatchDecoded_withMark {i : Ident} {L : Nat} {m1 : Byte} {rest : List Byte} {s : State} (m2 : Byte)
    (hwf : s.config.wf = true) (hi : memReadBE (m1 :: rest) 1 = some i) (hL : s.config.lengthOf i = some L) :
    dispatchDecoded (m2 :: rest) s = dispatchDecoded (m1 :: rest) s := by
  simp only [dispatchDecoded, decodeFrame_withMark m2 hwf hi hL]
  cases decodeFrame s.config.layout (m1 :: rest) with
  | ok m => exact runMessage_withMark m2 m s
  | error e => rfl

/-- Settles O53: the gates read the identifier alone, and past them the identifier is in the table. -/
theorem markIsNotExamined : Obligations.MarkIsNotExamined := by
  intro s m1 m2 rest valid scanned i hwf hi htable
  have hi2 : memReadBE (m2 :: rest) 1 = some i := hi
  rw [dispatch_eq (by exact hi), dispatch_eq (by exact hi2)]
  cases scanned with
  | true => rfl
  | false =>
    obtain ⟨L, hL⟩ := Option.isSome_iff_exists.mp (htable rfl)
    let reported := checksumReported { bytes := m1 :: rest, valid := valid, scanned := false } i s
    have hdecoded := dispatchDecoded_withMark (s := reported) m2 hwf hi hL
    exact if_congr .rfl rfl (if_congr .rfl rfl hdecoded.symm)

end Sys2Proof.Machine
end

section
/-!
# The encoder (`30_encoding.md` R50 to R58)

The header and the sum byte of an encoded frame, a field's bytes as its number, and that decoding undoes encoding: the
obligations O42, O43, O45 and O57.
-/
namespace Sys2Proof

/-! ## The sum byte -/

/-- With the sum byte the bytes add to 0 modulo 256 (`30_encoding.md` R52). -/
theorem byteSum_with_sumByte (body : List Byte) : byteSum (body ++ [sumByte body]) = 0 := by
  rw [byteSum_append_singleton, sumByte, BitVec.add_right_neg]
  rfl

theorem sumByte_toNat (body : List Byte) :
    (sumByte body).toNat = (256 - (body.map BitVec.toNat).sum % 256) % 256 := by
  rw [sumByte, BitVec.toNat_neg, byteSum_toNat]

/-- Settles O43: the last byte of a frame is the sum byte of the others. -/
theorem encodedFramesAreValid : Obligations.EncodedFramesAreValid := by
  intro mark i payload
  let body := [mark, frameBytes.bitsOfIdent i 8, frameBytes.bitsOfIdent i 0] ++ payload
  have hframe : frameBytes mark i payload = body ++ [sumByte body] := rfl
  rw [hframe]
  constructor
  · rw [← byteSum_toNat, byteSum_with_sumByte]
    rfl
  · rw [List.getLastD_concat, List.dropLast_concat]
    exact sumByte_toNat body

/-! ## The fields of an encoded frame -/

/-- The four bytes of a word, the last on top, are the word. -/
theorem leBytes_word (v : Word) :
    ∃ b0 b1 b2 b3 : Byte, leBytes 4 v.toNat = [b0, b1, b2, b3] ∧ b3 ++ b2 ++ b1 ++ b0 = v := by
  refine ⟨_, _, _, _, rfl, ?_⟩
  rw [← ofNat_leNat_four]
  exact (congrArg (BitVec.ofNat 32) (leNat_leBytes 4 v.toNat v.isLt)).trans (BitVec.ofNat_toNat 32 v)

/-- The two bytes of a half word, the second on top, are the half word. -/
theorem leBytes_half (v : Half) : ∃ b0 b1 : Byte, leBytes 2 v.toNat = [b0, b1] ∧ b1 ++ b0 = v := by
  refine ⟨_, _, rfl, ?_⟩
  rw [← ofNat_leNat_two]
  exact (congrArg (BitVec.ofNat 16) (leNat_leBytes 2 v.toNat v.isLt)).trans (BitVec.ofNat_toNat 16 v)

/-- A value of one byte survives the byte that the default layout gives it. -/
theorem zeroExtend_setWidth {v : Half} (hv : v.toNat < 256) : 0#8 ++ v.setWidth 8 = v := by
  apply BitVec.eq_of_toNat_eq
  simp [toNat_append_byte, Nat.mod_eq_of_lt hv]

theorem Validity.toByte_bits (v : Validity) :
    ({ pos := v.toByte.getLsbD 0, alt := v.toByte.getLsbD 1, hdg := v.toByte.getLsbD 2,
       spd := v.toByte.getLsbD 3 } : Validity) = v := by
  obtain ⟨hpos, halt, hhdg, hspd⟩ := nibbleByte_bits v.pos v.alt v.hdg v.spd
  simp only [Validity.toByte, hpos, halt, hhdg, hspd]

/-! ## Decoding undoes encoding, message by message -/

/-- The two bytes of an identifier. -/
theorem extract_append_byte (hi lo : Byte) :
    (hi ++ lo : Ident).extractLsb' 8 8 = hi ∧ (hi ++ lo : Ident).extractLsb' 0 8 = lo := by
  constructor <;> apply BitVec.eq_of_toNat_eq <;>
    rw [BitVec.extractLsb'_toNat, toNat_append_byte, Nat.shiftRight_eq_div_pow] <;> omega

/-- An encoded message is its header, its payload and one more byte, which no field reads. -/
theorem encodeMessage_eq (m : Message) {hi lo : Byte} (hident : m.ident = hi ++ lo) :
    ∃ sum, encodeMessage m = m.mark :: hi :: lo :: (m.payload ++ [sum]) := by
  obtain ⟨hhi, hlo⟩ := extract_append_byte hi lo
  have hbytes : encodeMessage m = m.mark :: m.ident.extractLsb' 8 8 :: m.ident.extractLsb' 0 8 ::
      (m.payload ++ [sumByte (m.mark :: m.ident.extractLsb' 8 8 :: m.ident.extractLsb' 0 8 :: m.payload)]) := rfl
  rw [hident, hhi, hlo] at hbytes
  exact ⟨_, hbytes⟩

theorem decode_encode_fastfix (mark : Byte) (f : FastfixFields) :
    decodeFrame defaultLayout (encodeMessage (.fastfix mark f)) = .ok (.fastfix mark f) := by
  obtain ⟨t0, t1, t2, t3, ht, htow⟩ := leBytes_word f.tow
  obtain ⟨a0, a1, a2, a3, ha, hlat⟩ := leBytes_word f.lat
  obtain ⟨o0, o1, o2, o3, ho, hlon⟩ := leBytes_word f.lon
  obtain ⟨h0, h1, hh, halt⟩ := leBytes_half f.alt
  have hpayload : (Message.fastfix mark f).payload =
      [f.status.toByte, f.age, t0, t1, t2, t3, a0, a1, a2, a3, o0, o1, o2, o3, h0, h1] := by
    simp only [Message.payload, ht, ha, ho, hh, List.cons_append, List.nil_append]
  obtain ⟨sum, hframe⟩ := encodeMessage_eq (.fastfix mark f) (by decide : identFastfix = (0x30 : Byte) ++ (0x02 : Byte))
  rw [hpayload] at hframe
  have hbytes : encodeMessage (.fastfix mark f) =
      [mark, 0x30, 0x02, f.status.toByte, f.age, t0, t1, t2, t3, a0, a1, a2, a3, o0, o1, o2, o3, h0, h1, sum] := hframe
  rw [hbytes, decodeFrame_fastfix, defaultLayout_fastfix_read, Validity.toByte_bits, htow, hlat, hlon, halt]
  rfl

theorem decode_encode_gpsfix (mark : Byte) (f : GpsfixFields) :
    decodeFrame defaultLayout (encodeMessage (.gpsfix mark f)) = .ok (.gpsfix mark f) := by
  obtain ⟨a0, a1, a2, a3, ha, hlat⟩ := leBytes_word f.lat
  obtain ⟨o0, o1, o2, o3, ho, hlon⟩ := leBytes_word f.lon
  obtain ⟨h0, h1, hh, halt⟩ := leBytes_half f.alt
  obtain ⟨d0, d1, hd, hhdg⟩ := leBytes_half f.hdg
  obtain ⟨v0, v1, hv, hspd⟩ := leBytes_half f.spd
  have hpayload : (Message.gpsfix mark f).payload =
      [status1Byte f.fixSrc f.altHold, f.status.toByte, a0, a1, a2, a3, o0, o1, o2, o3, h0, h1, d0, d1, v0, v1] := by
    simp only [Message.payload, ha, ho, hh, hd, hv, List.cons_append, List.nil_append]
  obtain ⟨sum, hframe⟩ := encodeMessage_eq (.gpsfix mark f) (by decide : identGpsfix = (0x31 : Byte) ++ (0x01 : Byte))
  rw [hpayload] at hframe
  have hbytes : encodeMessage (.gpsfix mark f) =
      [mark, 0x31, 0x01, status1Byte f.fixSrc f.altHold, f.status.toByte, a0, a1, a2, a3, o0, o1, o2, o3, h0, h1, d0, d1,
        v0, v1, sum] := hframe
  rw [hbytes, decodeFrame_gpsfix, defaultLayout_gpsfix_read, status1Byte_fixSrc, status1Byte_altHold,
    Validity.toByte_bits, hlat, hlon, halt, hhdg, hspd]
  rfl

theorem decode_encode_utcconst (mark : Byte) (f : UtcconstFields) (hyear : f.cal.year.toNat < 256) :
    decodeFrame defaultLayout (encodeMessage (.utcconst mark f)) = .ok (.utcconst mark f) := by
  obtain ⟨p0, p1, hp, hpdop⟩ := leBytes_half f.pdop
  obtain ⟨h0, h1, hh, hhdop⟩ := leBytes_half f.hdop
  obtain ⟨v0, v1, hv, hvdop⟩ := leBytes_half f.vdop
  have hpayload : (Message.utcconst mark f).payload =
      f.cal.bytes ++ [p0, p1, h0, h1, v0, v1, visByte f.vis] := by
    simp only [Message.payload, hp, hh, hv, List.append_assoc, List.cons_append, List.nil_append]
  obtain ⟨sum, hframe⟩ := encodeMessage_eq (.utcconst mark f) (by decide : identUtcconst = (0x32 : Byte) ++ (0x01 : Byte))
  rw [hpayload] at hframe
  have hbytes : encodeMessage (.utcconst mark f) =
      [mark, 0x32, 0x01, f.cal.year.setWidth 8, f.cal.month, f.cal.day, f.cal.hour, f.cal.minute, f.cal.second,
        f.cal.offset, p0, p1, h0, h1, v0, v1, visByte f.vis, sum] := hframe
  rw [hbytes, decodeFrame_utcconst, defaultLayout_utcconst_read, zeroExtend_setWidth hyear, visByte_vis, hpdop, hhdop,
    hvdop]
  rfl

theorem decode_encode_utctime (mark : Byte) (f : UtctimeFields) (hyear : f.cal.year.toNat < 256) :
    decodeFrame defaultLayout (encodeMessage (.utctime mark f)) = .ok (.utctime mark f) := by
  obtain ⟨t0, t1, t2, t3, ht, htow⟩ := leBytes_word f.tow
  obtain ⟨w0, w1, hw, hweek⟩ := leBytes_half f.week
  have hpayload : (Message.utctime mark f).payload = [t0, t1, t2, t3, w0, w1] ++ f.cal.bytes := by
    simp only [Message.payload, ht, hw, List.cons_append, List.nil_append]
  obtain ⟨sum, hframe⟩ := encodeMessage_eq (.utctime mark f) (by decide : identUtctime = (0x32 : Byte) ++ (0x03 : Byte))
  rw [hpayload] at hframe
  have hbytes : encodeMessage (.utctime mark f) =
      [mark, 0x32, 0x03, t0, t1, t2, t3, w0, w1, f.cal.year.setWidth 8, f.cal.month, f.cal.day, f.cal.hour,
        f.cal.minute, f.cal.second, f.cal.offset, sum] := hframe
  rw [hbytes, decodeFrame_utctime, defaultLayout_utctime_read, zeroExtend_setWidth hyear, htow, hweek]
  rfl

theorem decode_encode_chanstat (mark : Byte) (f : ChanstatFields) (haz : f.az.toNat < 256) :
    decodeFrame defaultLayout (encodeMessage (.chanstat mark f)) = .ok (.chanstat mark f) := by
  obtain ⟨hvisible, hhasTracked, htracking, hmeetsMask⟩ :=
    nibbleByte_bits f.visible f.hasTracked f.tracking f.meetsMask
  obtain ⟨sum, hframe⟩ := encodeMessage_eq (.chanstat mark f) (by decide : identChanstat = (0x33 : Byte) ++ (0x01 : Byte))
  have hbytes : encodeMessage (.chanstat mark f) =
      [mark, 0x33, 0x01, f.index, f.prn, nibbleByte f.visible f.hasTracked f.tracking f.meetsMask, f.snr,
        f.az.setWidth 8, f.el, almephByte f.alm f.eph, sum] := hframe
  rw [hbytes, decodeFrame_chanstat, defaultLayout_chanstat_read, hvisible, hhasTracked, htracking, hmeetsMask,
    zeroExtend_setWidth haz, almephByte_alm, almephByte_eph]
  rfl

/-- An identifier that is none of the five decodes to `UNKNOWN`, whatever follows the header. -/
theorem decodeFrame_unknown (lay : Layout) (mark : Byte) {i : Ident} {l : List Byte}
    (hi : memReadBE (mark :: l) 1 = some i) (hnone : i ∉ dispatchedIdents) : decodeFrame lay (mark :: l) = .ok (.unknown mark i) := by
  obtain ⟨hfast, hgps, hconst, htime, hchan⟩ := (not_mem_dispatchedIdents_iff i).mp hnone
  simp only [decodeFrame, hi, List.getElem?_cons_zero, if_neg hfast, if_neg hgps, if_neg hconst, if_neg htime,
    if_neg hchan]

theorem decode_encode_unknown (mark : Byte) {i : Ident} (hnone : i ∉ dispatchedIdents) :
    decodeFrame defaultLayout (encodeMessage (.unknown mark i)) = .ok (.unknown mark i) :=
  decodeFrame_unknown defaultLayout mark
    ((memReadBE_header mark _ _ _).trans (congrArg some (ident_halves i))) hnone

/-- Settles O42: at level 1 the byte class, at level 2 message by message. -/
theorem decodeEncodeAgree : Obligations.DecodeEncodeAgree := by
  intro i hwf
  cases i with
  | sync | esc | endByte => exact .inl ⟨_, rfl, rfl⟩
  | data b =>
    simp only [Instr.wf, Bool.and_eq_true, bne_iff_ne] at hwf
    obtain ⟨⟨hesc, hsync⟩, hend⟩ := hwf
    exact .inl ⟨b, rfl, by simp only [decodeByte, if_neg hsync, if_neg hesc, if_neg hend]⟩
  | fastfix mark f => exact .inr ⟨_, decode_encode_fastfix mark f, rfl⟩
  | gpsfix mark f => exact .inr ⟨_, decode_encode_gpsfix mark f, rfl⟩
  | utcconst mark f => exact .inr ⟨_, decode_encode_utcconst mark f (of_decide_eq_true hwf), rfl⟩
  | utctime mark f => exact .inr ⟨_, decode_encode_utctime mark f (of_decide_eq_true hwf), rfl⟩
  | chanstat mark f => exact .inr ⟨_, decode_encode_chanstat mark f (of_decide_eq_true hwf), rfl⟩
  | unknown mark i => exact .inr ⟨_, decode_encode_unknown mark (by simpa [Instr.wf] using hwf), rfl⟩

/-- Settles O45: each word is evaluated to its wire byte, or to its header with zero operands. -/
theorem tableWordsDecode : Obligations.TableWordsDecode :=
  ⟨rfl, rfl, rfl, rfl, rfl, ⟨_, rfl⟩, ⟨_, rfl⟩, ⟨_, rfl⟩, ⟨_, rfl⟩, ⟨_, rfl⟩⟩

/-! ## Fields of any layout -/

/-- Settles O57: inside the bytes the field's number is there, and where it fits the register nothing of it is free. -/
theorem fieldsOfAnyWidthAssemble : Obligations.FieldsOfAnyWidthAssemble := by
  intro f bytes w hin
  refine ⟨?number, fun hlt => f.readByte_eq bytes hlt hin, fun v lo n k hk hlo => bitsOf_getLsbD v hk hlo⟩
  case number =>
    rcases memRead_cases bytes f.off f.width with ⟨-, v, hv, hlt⟩ | ⟨hout, -⟩
    · refine ⟨v, f.assemble w v, hv, by rwa [pow_mul], by rw [FieldSpec.read, hv, Option.map_some], fun hfits => ?_⟩
      rw [f.assemble_of_fits hfits, BitVec.toNat_ofNat, Nat.mod_eq_of_lt hfits]
    · omega

end Sys2Proof
end

section
/-!
# The readings of the raw registers (`10_state.md` R25)

The sign of an angle and the bounds of the other readings: the obligation O56.
-/
namespace Sys2Proof.Machine

/-- A two's complement number is positive exactly when it is not zero and its top bit is clear. -/
theorem toInt_pos_iff (raw : Word) : 0 < raw.toInt ↔ raw ≠ 0 ∧ raw.getLsbD 31 = false := by
  have hsign : raw.getLsbD 31 = decide (raw.toInt < 0) := by
    rw [← BitVec.msb_eq_toInt, BitVec.msb_eq_getLsbD_last]
  have hzero : raw = 0 ↔ raw.toInt = 0 := by
    rw [← BitVec.toInt_inj]
    rfl
  rw [hsign, ne_eq, hzero, decide_eq_false_iff_not]
  omega

theorem degreesOf_pos_iff (raw : Word) : 0 < degreesOf raw ↔ raw ≠ 0 ∧ raw.getLsbD 31 = false := by
  rw [← toInt_pos_iff, degreesOf, div_pos_iff_of_pos_right (by norm_num)]
  exact Int.cast_pos

theorem headingOf_range (raw : Half) : 0 ≤ headingOf raw ∧ headingOf raw < 2 := by
  have hraw : (raw.toNat : Rat) < 65536 := by exact_mod_cast raw.isLt
  have hpos : (0 : Rat) ≤ raw.toNat := Nat.cast_nonneg _
  unfold headingOf
  constructor
  · positivity
  · rw [div_lt_iff₀ (by norm_num)]
    linarith

theorem ageReading_of_lt {raw : Byte} (h : raw.toNat < 254) : ageReading raw = .seconds raw.toNat := by
  have hunavailable : raw ≠ 255 := by
    rintro rfl
    simp at h
  have hsaturated : raw ≠ 254 := by
    rintro rfl
    simp at h
  rw [ageReading, if_neg hunavailable, if_neg hsaturated]

/-- Settles O56: the quotients are the definitions, the sign, the range and the age by the lemmas above. -/
theorem interpretedRegisterRanges : Obligations.InterpretedRegisterRanges := by
  refine ⟨fun raw => ⟨rfl, degreesOf_pos_iff raw⟩, fun _ => rfl, fun raw => ⟨rfl, headingOf_range raw⟩, fun _ => rfl,
    fun _ => rfl, ?dop, fun _ => rfl, rfl, rfl, fun _ => ageReading_of_lt⟩
  case dop =>
    have hraw : (0xFF00 : Half).toNat = 65280 := rfl
    rw [dopOf, hraw]
    norm_num

end Sys2Proof.Machine
end
